-- ==== Sys2Proof/Word.lean ====
section
/-! DEFINITION. Word.lean: the byte, the operation word, the logic level and the names of the lines (spec 00_scope.md
section 5 and rule R8). Bits of a byte are numbered 7 (most significant) to 0; every value is unsigned. -/

namespace Sys2Proof

/-- One byte of the framebuffer, of the constant table or of a burst (R30). -/
abbrev Byte := BitVec 8

/-- The operation word: the two wires `op_code[1:0]` of the operation port (R50). -/
abbrev OpWord := BitVec 2

/-- The electrical logic level of a line; `low` is logic 0 and `high` is logic 1 (00_scope.md section 5). -/
inductive Level where
  | low
  | high
  deriving DecidableEq, Repr, Inhabited

/-- The three output lines: CHIP SELECT, DATA/COMMAND SELECT, RESET (R8, R14). -/
inductive Line where
  | cs
  | dc
  | rst
  deriving DecidableEq, Repr, Inhabited

/-- What a byte on the bus is to the panel: a command byte (DC low) or a parameter or data byte (DC high) (R9, R54). -/
inductive WireKind where
  | cmd
  | data
  deriving DecidableEq, Repr, Inhabited

/-- The bus engine's answer for one burst: `ok`, or `fault k`: the first `k` bytes were delivered, whether byte `k` was is
unknown, the rest were never sent (R72). -/
inductive BusOutcome where
  | ok
  | fault (k : Nat)
  deriving DecidableEq, Repr, Inhabited

end Sys2Proof
end

