-- ==== Sys2Proof/Config.lean ====
section
/-! DEFINITION. Config.lean: the configuration record `cfg` of R4 (a parameter of the machine, never changed: R19), the one
configuration `State.reset` runs with, and the free values: what the spec leaves to the environment or leaves unspecified.
A free value is an `opaque` constant: nothing in Lean knows what it is. -/

namespace Sys2Proof

/-- One entry of `INIT_TABLE`: a command byte and its parameter block, zero or more bytes (R56). -/
structure InitEntry where
  cmd    : Byte
  params : List Byte
  deriving DecidableEq, Repr, Inhabited

/-- The configuration record `cfg` of R4. `ROW_BYTES` and `FB_BYTES` are derived: Machine/Memory.lean. -/
structure Cfg where
  /-- `WIDTH`, pixels. -/
  width         : Nat
  /-- `HEIGHT`, pixels. -/
  height        : Nat
  /-- `INIT_TABLE`, the fixed init sequence of the controller's datasheet (R55, R56). -/
  initTable     : List InitEntry
  /-- `CMD_WRITE_RAM`. -/
  cmdWriteRam   : Byte
  /-- `CMD_REFRESH`. -/
  cmdRefresh    : Byte
  /-- `CMD_SLEEP`. -/
  cmdSleep      : Byte
  /-- `SLEEP_PARAMS`, the check code. -/
  sleepParams   : List Byte
  /-- `T_RESET_LOW_US`, microseconds. -/
  tResetLowUs   : Nat
  /-- `T_RESET_HIGH_US`, microseconds. -/
  tResetHighUs  : Nat
  /-- `T_POLL_US`, microseconds. -/
  tPollUs       : Nat
  /-- `N_POLL_MAX`, the bound of the busy-wait, counted in delays (R76, R115). -/
  nPollMax      : Nat
  /-- `PIXEL_WHITE_BIT`, informative: no rule of the sequencer reads it (R33). -/
  pixelWhiteBit : BitVec 1
  deriving DecidableEq, Repr, Inhabited

/-- FREE VALUE. The bus engine's answer number `n` once a run's script is used up (R7, R72, U12; assumption log 2). -/
opaque Config.freeBus : Nat → BusOutcome

/-- FREE VALUE. The level of BUSY at sample number `n` once a run's script is used up (R7, R75, U11; assumption log 2). -/
opaque Config.freeBusy : Nat → Level

/-- FREE VALUE. Byte `a` of a framebuffer that block reset number `e` left unspecified and the host has not written since
(R38, U7; assumption log 3). -/
opaque Config.freeByte : Nat → Nat → Byte

/-- OPEN (R4, D14): the reset configuration's init table. -/
opaque Config.initTable : List InitEntry

/-- OPEN (R4, D14). -/
opaque Config.cmdWriteRam : Byte

/-- OPEN (R4, D14). -/
opaque Config.cmdRefresh : Byte

/-- OPEN (R4, D14). -/
opaque Config.cmdSleep : Byte

/-- OPEN (R4, D14): the first byte of the check code; the block of parameters is not empty (D29). -/
opaque Config.sleepParam0 : Byte

/-- OPEN (R4, D14): the rest of the check code. -/
opaque Config.sleepParamsRest : List Byte

/-- OPEN (R4, D13). -/
opaque Config.tResetLowUs : Nat

/-- OPEN (R4, D13). -/
opaque Config.tResetHighUs : Nat

/-- OPEN (R4, D13). -/
opaque Config.tPollUs : Nat

/-- OPEN (R4, D13): `N_POLL_MAX - 1`, since `N_POLL_MAX >= 1` (D29). -/
opaque Config.nPollMaxLessOne : Nat

/-- OPEN (R4, R33): informative. -/
opaque Config.pixelWhiteBit : BitVec 1

/-- The configuration of the machine at `State.reset`: the reference panel of R4, 800 by 480, every OPEN parameter an
opaque constant (assumption log 1). Every statement is made for every configuration, not for this one. -/
def Config.reference : Cfg where
  width         := 800
  height        := 480
  initTable     := Config.initTable
  cmdWriteRam   := Config.cmdWriteRam
  cmdRefresh    := Config.cmdRefresh
  cmdSleep      := Config.cmdSleep
  sleepParams   := Config.sleepParam0 :: Config.sleepParamsRest
  tResetLowUs   := Config.tResetLowUs
  tResetHighUs  := Config.tResetHighUs
  tPollUs       := Config.tPollUs
  nPollMax      := Config.nPollMaxLessOne + 1
  pixelWhiteBit := Config.pixelWhiteBit

end Sys2Proof
end

