-- ==== Sys2Proof/Syntax.lean ====
section
/-! DEFINITION. Syntax.lean: the four operations of spec/opcode_table.json (R51). No operation has an operand (R52). -/

namespace Sys2Proof

/-- The host operations of EPDSEQ, in the order of R51. (The first is spelled with an s because `initialize` is a word of
Lean's own.) -/
inductive Instr where
  /-- INITIALIZE, op_code 00 (R80). -/
  | initialise
  /-- UPDATE_FRAME, op_code 01 (R85). -/
  | updateFrame
  /-- DISPLAY_FRAME, op_code 10 (R90). -/
  | displayFrame
  /-- SLEEP, op_code 11 (R95). -/
  | sleep
  deriving DecidableEq, Repr, Inhabited

end Sys2Proof
end

