-- ==== Sys2Proof/Machine/State.lean ====
section
/-! DEFINITION. Machine/State.lean: the state of EPDSEQ as R10 lists it, one field a row; the ghost state of the panel (R20);
and the model's own fields: the configuration (a parameter of every step, R19), the event trace (R8), the environment's
coming answers (R7), and the host's coming actions (R121). Plain data throughout. With it the named updates, and
`State.reset`. -/

namespace Sys2Proof.Machine

/-- The phase register's six values (R11). -/
inductive Phase where
  | uninitialized
  | ready
  | transferringFrame
  | refreshing
  | sleeping
  | faulted
  deriving DecidableEq, Repr, Inhabited

/-- The field `err` of a result (R57). The last two are the host side's errors of the framebuffer functions (R100); the
sequencer never produces them. -/
inductive Err where
  | ok
  | illegalState
  | hardwareInitError
  | transferError
  | busyTimeout
  | invalidGeometry
  | sizeMismatch
  deriving DecidableEq, Repr, Inhabited

/-- The field `cause` of a result (R57). -/
inductive Cause where
  | none
  | busFault
  | busyTimeout
  deriving DecidableEq, Repr, Inhabited

/-- The result register: the outcome of the most recently completed operation (R13). -/
structure Result where
  err   : Err
  cause : Cause
  deriving DecidableEq, Repr, Inhabited

/-- The event alphabet (R8): everything of an operation that is visible outside the block. -/
inductive Event where
  /-- Output line `line` was driven to `level`. -/
  | pin (line : Line) (level : Level)
  /-- The block waited for at least `us` microseconds. -/
  | delay (us : Nat)
  /-- One burst was handed to the bus engine, which answered `outcome`. -/
  | bus (bytes : List Byte) (outcome : BusOutcome)
  /-- BUSY was sampled once and read `level`. -/
  | busy (level : Level)
  deriving DecidableEq, Repr, Inhabited

/-- A position inside one chip-select window (R73, R74): which of its four events comes next. At `csHigh` the outcome of the
burst is known and its window is still open. -/
inductive WinPos where
  | dc
  | csLow
  | burst
  | csHigh (r : BusOutcome)
  deriving DecidableEq, Repr, Inhabited

/-- The sequencer's position in an operation's pseudocode: which event comes next (R12). The first five are steps 1 and 2 of
INITIALIZE; `window` is inside a SendCommand or a SendData; the last two are inside BusyWait. -/
inductive Pos where
  | csIdle
  | rstLow
  | rstLowWait
  | rstHigh
  | rstHighWait
  | window (kind : WireKind) (w : WinPos)
  | sample
  | pollDelay
  deriving DecidableEq, Repr, Inhabited

/-- The sequencer position `seq` of R12: which operation is running and how far its pseudocode has advanced. `start` is the
length of the trace at acceptance, so the events emitted so far are those of the trace from `start` on. -/
structure Seq where
  op    : Instr
  start : Nat
  pos   : Pos
  deriving DecidableEq, Repr, Inhabited

/-- Ghost `panel_cfg` (R20). -/
inductive PanelConfig where
  | configured
  | asleep
  | undefined
  deriving DecidableEq, Repr, Inhabited

/-- What ghost `panel_ram` and `panel_visible` hold (R20): bytes, or `undefined`, which means any bytes and never a
particular image (U2, U3, U13). -/
inductive Image where
  | undefined
  | bytes (bs : List Byte)
  deriving DecidableEq, Repr, Inhabited

/-- The ghost state of the panel (R20). No rule of an operation depends on it. -/
structure Panel where
  config  : PanelConfig
  ram     : Image
  visible : Image
  deriving DecidableEq, Repr, Inhabited

/-- The environment's coming answers (R7): a script of bus outcomes and one of BUSY levels, each consumed from the left, and
how many answers were drawn beyond each script. Beyond its script the environment answers with a free value of Config
(assumption log 2). -/
structure Env where
  busScript  : List BusOutcome
  busyScript : List Level
  busDraws   : Nat
  busyDraws  : Nat
  deriving DecidableEq, Repr, Inhabited

/-- The framebuffer memory: the bytes the host has written since the block reset, as (address, byte) pairs with the addresses
strictly rising. An address that is not listed has no written value: it is unspecified (R38), read as a free byte. -/
abbrev Memory := List Host.Cell

/-- What the host may do (R121), in the order in which it does it. Operation words, port writes and loads are requests: one that
finds an operation running is held off (R50, R38) while the actions behind it that are none, block reset among them, go on
(assumption log 13). The actions the spec marks "never" have no move (U14). -/
inductive HostAction where
  /-- Holds the operation word at the port until it is accepted; the operation then runs to completion in the same step: the
  big step of R6. -/
  | call (w : OpWord)
  /-- Holds the operation word at the port until it is accepted; the step ends with the acceptance, and each later step
  advances the operation by one position: the small step of R6. -/
  | start (w : OpWord)
  /-- Lets one step pass with no new request. -/
  | idle
  /-- Writes bytes to the framebuffer through the write port, held off while an operation runs (R38). -/
  | memWrite (addr : Nat) (bytes : List Byte)
  /-- Loads the whole framebuffer, with its size check (R68), held off while an operation runs. -/
  | fbLoad (bytes : List Byte)
  /-- Asserts block reset, at any time, also while requests are held off (R130, R132). -/
  | blockReset
  /-- Cuts the power of block and panel, at any time, and releases block reset after power-up (R21, R24). -/
  | powerCycle
  deriving DecidableEq, Repr, Inhabited

/-- Why the machine stops. No operation of the opcode table ever ends in one of these. -/
inductive Fault where
  /-- Raised by the host's write port: an address at or beyond `FB_BYTES` does not exist (R31, R38). Safe: the run stops where
  the spec says such a write is not representable. -/
  | fbAddress
  /-- Raised by a step in a state with `active = 1` and no sequencer position, which is no state of the block (R12). Safe: no
  run reaches one. -/
  | noSequencerPosition
  deriving DecidableEq, Repr

/-- Why a step has no meaning. -/
inductive Refusal where
  /-- Raised by an arm of exec whose instruction has no meaning yet. Safe. No arm of this model raises it. -/
  | notModelled (mnemonic : String)
  deriving DecidableEq, Repr

/-- The state of the machine. -/
@[ext]
structure State where
  /-- The phase register (R11). -/
  phase    : Phase
  /-- An operation is running; `op_ready` is its negation (R12, R50). -/
  active   : Bool
  /-- The sequencer position; no value while dead (R12, R21). -/
  seq      : Option Seq
  /-- The result register (R13). -/
  result   : Result
  /-- The completion pulse: true in the one state after the step that ended an operation (R13). -/
  done     : Bool
  /-- The latch of CHIP SELECT: low, high or no value (R14). -/
  cs       : Option Level
  /-- The latch of DATA/COMMAND SELECT: low, high or no value (R14). -/
  dc       : Option Level
  /-- The latch of RESET: low, high or no value (R14). -/
  rst      : Option Level
  /-- The level the last sample of BUSY read, or no value (R15). -/
  lastBusy : Option Level
  /-- `tbl_idx`: entries of the init table already sent; no value while dead (R16). -/
  tblIdx   : Option Nat
  /-- `byte_idx`: bytes of the current burst already handed to the bus; no value while dead (R16). -/
  byteIdx  : Option Nat
  /-- `poll_cnt`: delays already taken by the current busy-wait; no value while dead (R16, R115). -/
  pollCnt  : Option Nat
  /-- The framebuffer memory (R18, R31). -/
  fb       : Memory
  /-- Ghost: the panel (R20). -/
  panel    : Panel
  /-- The model's own: the configuration, a parameter of every step that nothing changes (R19). -/
  cfg      : Cfg
  /-- The model's own: the events of the run so far, in order (R8). -/
  trace    : List Event
  /-- The model's own: the environment's coming answers (R7). -/
  env      : Env
  /-- The model's own: how many block resets have left `fb` unspecified; it tells one unspecified content from another (R38). -/
  fbEpoch  : Nat
  /-- The model's own: what the host does next, oldest first (R121). -/
  host     : List HostAction
  /-- The model's own: what the host saw of its last framebuffer load: success or SizeMismatch (R68). -/
  loadErr  : Err
  deriving DecidableEq, Repr

/-! ## The named updates -/

/-- `phase <- p`. -/
def State.withPhase (s : State) (p : Phase) : State := { s with phase := p }
/-- `active <- b`. -/
def State.withActive (s : State) (b : Bool) : State := { s with active := b }
/-- Moves the sequencer position. -/
def State.withSeq (s : State) (q : Option Seq) : State := { s with seq := q }
/-- `result <- r`. -/
def State.withResult (s : State) (r : Result) : State := { s with result := r }
/-- Drives the done pulse. -/
def State.withDone (s : State) (b : Bool) : State := { s with done := b }
/-- Writes the CS latch. -/
def State.withCs (s : State) (v : Option Level) : State := { s with cs := v }
/-- Writes the DC latch. -/
def State.withDc (s : State) (v : Option Level) : State := { s with dc := v }
/-- Writes the RESET latch. -/
def State.withRst (s : State) (v : Option Level) : State := { s with rst := v }
/-- `last_busy <- v`. -/
def State.withLastBusy (s : State) (v : Option Level) : State := { s with lastBusy := v }
/-- `tbl_idx <- n`. -/
def State.withTblIdx (s : State) (n : Option Nat) : State := { s with tblIdx := n }
/-- `byte_idx <- n`. -/
def State.withByteIdx (s : State) (n : Option Nat) : State := { s with byteIdx := n }
/-- `poll_cnt <- n`. -/
def State.withPollCnt (s : State) (n : Option Nat) : State := { s with pollCnt := n }
/-- Replaces the framebuffer memory. -/
def State.withFb (s : State) (m : Memory) : State := { s with fb := m }
/-- Replaces the ghost state of the panel. -/
def State.withPanel (s : State) (p : Panel) : State := { s with panel := p }
/-- Replaces the event trace. -/
def State.withTrace (s : State) (t : List Event) : State := { s with trace := t }
/-- Replaces the environment's coming answers. -/
def State.withEnv (s : State) (e : Env) : State := { s with env := e }
/-- Replaces the host's coming actions. -/
def State.withHost (s : State) (h : List HostAction) : State := { s with host := h }
/-- Records what the host saw of a load. -/
def State.withLoadErr (s : State) (e : Err) : State := { s with loadErr := e }

/-- The machine right after the first block reset after power-up (R21, R130): the block's fields as R21 gives them, the
ghost state undefined, nothing emitted, nothing scripted, nothing asked by the host. -/
def State.reset : State where
  phase    := .uninitialized
  active   := false
  seq      := none
  result   := ⟨.ok, .none⟩
  done     := false
  cs       := none
  dc       := none
  rst      := none
  lastBusy := none
  tblIdx   := none
  byteIdx  := none
  pollCnt  := none
  fb       := []
  panel    := ⟨.undefined, .undefined, .undefined⟩
  cfg      := Config.reference
  trace    := []
  env      := ⟨[], [], 0, 0⟩
  fbEpoch  := 0
  host     := []
  loadErr  := .ok

end Sys2Proof.Machine
end

