-- ==== Sys2Proof/Machine/Flags.lean ====
section
/-! DEFINITION. Machine/Flags.lean: the block's only flags, `result`, `done`, `active` and `phase`, as the words the host
reads (R13, R57, R58), with the decoders of these words, which refuse the values that are never produced (U9). -/

namespace Sys2Proof.Machine

/-- The 3-bit code of a phase (R11). -/
def phaseCode : Phase → BitVec 3
  | .uninitialized     => 0#3
  | .ready             => 1#3
  | .transferringFrame => 2#3
  | .refreshing        => 3#3
  | .sleeping          => 4#3
  | .faulted           => 5#3

/-- The phase of a 3-bit code; 6 and 7 are unused (R11). -/
def phaseOfCode (c : BitVec 3) : Option Phase :=
  match c.toNat with
  | 0 => some .uninitialized
  | 1 => some .ready
  | 2 => some .transferringFrame
  | 3 => some .refreshing
  | 4 => some .sleeping
  | 5 => some .faulted
  | _ => none

/-- The 3-bit code of an error kind (R57, R100). -/
def errCode : Err → BitVec 3
  | .ok                => 0#3
  | .illegalState      => 1#3
  | .hardwareInitError => 2#3
  | .transferError     => 3#3
  | .busyTimeout       => 4#3
  | .invalidGeometry   => 5#3
  | .sizeMismatch      => 6#3

/-- The 2-bit code of a cause (R57). -/
def causeCode : Cause → BitVec 2
  | .none        => 0#2
  | .busFault    => 1#2
  | .busyTimeout => 2#2

/-- The result word: `cause` in bits 4:3, `err` in bits 2:0 (R57). -/
def resultWord (r : Result) : BitVec 5 := causeCode r.cause ++ errCode r.err

/-- The six pairs the block can produce (R57). -/
def legalResults : List Result :=
  [⟨.ok, .none⟩, ⟨.illegalState, .none⟩, ⟨.hardwareInitError, .busFault⟩, ⟨.hardwareInitError, .busyTimeout⟩,
   ⟨.transferError, .busFault⟩, ⟨.busyTimeout, .busyTimeout⟩]

/-- The result a result word reports; every word the block never produces is refused (R57, U9). -/
def resultOfWord (w : BitVec 5) : Option Result := legalResults.find? fun r => resultWord r == w

/-- The status word: `active` in bit 3, `phase` in bits 2:0 (R58). -/
def statusWord (s : State) : BitVec 4 := BitVec.ofBool s.active ++ phaseCode s.phase

/-- The `active` bit and the phase a status word reports; the phase codes 6 and 7 are refused (R58, U9). -/
def statusOfWord (w : BitVec 4) : Option (Bool × Phase) :=
  (phaseOfCode (w.extractLsb' 0 3)).map fun p => (w.getLsbD 3, p)

/-- `op_ready`: 1 exactly when no operation is running (R50). -/
def opReady (s : State) : Bool := !s.active

/-- An idle phase: one the block can be found in while no operation runs (R11, glossary). -/
def Phase.isIdle : Phase → Bool
  | .uninitialized | .ready | .sleeping | .faulted => true
  | .transferringFrame | .refreshing => false

end Sys2Proof.Machine
end

