-- ==== Sys2Proof/Machine/Memory.lean ====
section
/-! DEFINITION. Machine/Memory.lean: the framebuffer memory (R31, R38, R44): its size, one byte read and written, lists of
bytes, and the canonical form. Everything wider is built from the one-byte accesses (R35: every access is one byte wide). -/

namespace Sys2Proof

/-- `ROW_BYTES = WIDTH / 8` (R4, R31). -/
def Cfg.rowBytes (c : Cfg) : Nat := c.width / 8

/-- `FB_BYTES = ROW_BYTES * HEIGHT` (R4, R31). -/
def Cfg.fbBytes (c : Cfg) : Nat := c.rowBytes * c.height

/-- `BUSY_TIMEOUT_US`, shorthand for `N_POLL_MAX * T_POLL_US` (R4, R76). -/
def Cfg.busyTimeoutUs (c : Cfg) : Nat := c.nPollMax * c.tPollUs

namespace Machine

/-- The canonical form: the addresses rise strictly. An unlisted address has no value, so no entry can equal one. -/
abbrev Memory.wf (m : Memory) : Prop := m.Pairwise fun c d => c.1 < d.1

/-- Every listed address exists: it is below `n` (R31). -/
abbrev Memory.below (n : Nat) (m : Memory) : Prop := ∀ c ∈ m, c.1 < n

/-- The byte written at an address, if one was written since the block reset. -/
def Memory.read (a : Nat) : Memory → Option Byte
  | [] => none
  | c :: m => if c.1 = a then some c.2 else Memory.read a m

/-- Writes one byte, keeping the canonical form. -/
def Memory.write (a : Nat) (b : Byte) : Memory → Memory
  | [] => [(a, b)]
  | c :: m =>
    if a < c.1 then (a, b) :: c :: m
    else if c.1 = a then (a, b) :: m
    else c :: Memory.write a b m

/-- Writes the bytes of a list at `a`, `a + 1`, ... (R38: `v[i]` at `fb[addr + i]`). -/
def Memory.writeBytes (a : Nat) : List Byte → Memory → Memory
  | [], m => m
  | b :: bs, m => Memory.write a b (Memory.writeBytes (a + 1) bs m)

end Machine
end Sys2Proof
end

