-- ==== Sys2Proof/Machine/Operands.lean ====
section
/-! DEFINITION. Machine/Operands.lean: the implicit operands of the operations (R52): the content of `fb` and the constants of
the command table (R55). -/

namespace Sys2Proof.Machine

/-- The byte of `fb` at an address: the byte written there, or, where none was written since the block reset, the free byte of
this content of the memory (R38, R87(c), U7). -/
def fbByte (s : State) (a : Nat) : Byte := (s.fb.read a).getD (Config.freeByte s.fbEpoch a)

/-- `MemRead(addr, n)`: the `n` bytes from `addr` on, in increasing address order (00_scope.md section 5, R34). -/
def memRead (addr n : Nat) (s : State) : List Byte := (List.range n).map fun i => fbByte s (addr + i)

/-- Where `MemRead` is defined: `n >= 1` and `addr + n <= FB_BYTES` (R31). -/
def memReadDefined (addr n : Nat) (c : Cfg) : Bool := 1 ≤ n && addr + n ≤ c.fbBytes

/-- The implicit operand of UPDATE_FRAME: the whole of `fb`, `MemRead(0, FB_BYTES)` (R52, R85). -/
def frame (s : State) : List Byte := memRead 0 s.cfg.fbBytes s

/-- The entry of the init table that `tbl_idx` points at (R80); an empty entry past the end, where no rule reads. -/
def currentEntry (s : State) : InitEntry := (s.cfg.initTable[s.tblIdx.getD 0]?).getD ⟨0, []⟩

/-- The bytes of a transaction's part (R54, R55): its command byte, or its parameter block. DISPLAY_FRAME has no
parameters. -/
def burstBytes (op : Instr) (k : WireKind) (s : State) : List Byte :=
  match op, k with
  | .initialise,   .cmd  => [(currentEntry s).cmd]
  | .initialise,   .data => (currentEntry s).params
  | .updateFrame,  .cmd  => [s.cfg.cmdWriteRam]
  | .updateFrame,  .data => frame s
  | .displayFrame, .cmd  => [s.cfg.cmdRefresh]
  | .displayFrame, .data => []
  | .sleep,        .cmd  => [s.cfg.cmdSleep]
  | .sleep,        .data => s.cfg.sleepParams

end Sys2Proof.Machine
end

