-- ==== Sys2Proof/Machine/Ops.lean ====
section
/-! DEFINITION. Machine/Ops.lean: the ten primitives of 41_sequencer_primitives.md, from which the four operations are built:
the environment's answers, the line, timer and bus primitives, the transactions, the busy-wait, and acceptance, refusal,
failure and completion. `raise` is this machine's one shared "taking an exception" (R78, R109); there is nothing to return
from (R111), so beside it stand the two other ways an operation ends. -/

namespace Sys2Proof.Machine

/-! ## The environment's answers (R7) -/

/-- The legal form of an answer to a burst of `len` bytes: a fault's position is below `len` (R72). -/
def legalOutcome (len : Nat) : BusOutcome → BusOutcome
  | .ok => .ok
  | .fault k => .fault (k % len)

/-- The answer the environment gives to the next burst, of `len` bytes. -/
def Env.nextBus (e : Env) (len : Nat) : BusOutcome :=
  match e.busScript with
  | [] => legalOutcome len (Config.freeBus e.busDraws)
  | r :: _ => legalOutcome len r

/-- The environment once it has answered a burst. -/
def Env.afterBus (e : Env) : Env :=
  match e.busScript with
  | [] => { e with busDraws := e.busDraws + 1 }
  | _ :: rs => { e with busScript := rs }

/-- The level BUSY reads at the next sample. -/
def Env.nextBusy (e : Env) : Level :=
  match e.busyScript with
  | [] => Config.freeBusy e.busyDraws
  | v :: _ => v

/-- The environment once BUSY has been sampled. -/
def Env.afterBusy (e : Env) : Env :=
  match e.busyScript with
  | [] => { e with busyDraws := e.busyDraws + 1 }
  | _ :: vs => { e with busyScript := vs }

/-! ## Line, timer and bus primitives -/

/-- Adds one event to the trace (R8). -/
def emit (e : Event) (s : State) : State := s.withTrace (s.trace ++ [e])

/-- `latch(line) <- level` (R14, R70). -/
def setLatch (l : Line) (v : Level) (s : State) : State :=
  match l with
  | .cs  => s.withCs (some v)
  | .dc  => s.withDc (some v)
  | .rst => s.withRst (some v)

/-- `PinWrite(line, level)` (R70): one event, whether or not the latch held that level already. -/
def pinWrite (l : Line) (v : Level) (s : State) : State := emit (.pin l v) (setLatch l v s)

/-- `Delay(us)` (R71). -/
def delay (us : Nat) (s : State) : State := emit (.delay us) s

/-- `BusTransfer(bytes)` (R72): one burst, answered by the environment; `byte_idx` is dead afterwards. -/
def busTransfer (bs : List Byte) (s : State) : BusOutcome × State :=
  let r := s.env.nextBus bs.length
  (r, emit (.bus bs r) ((s.withEnv s.env.afterBus).withByteIdx none))

/-- `SampleBusy()` (R75). -/
def sampleBusy (s : State) : Level × State :=
  let v := s.env.nextBusy
  (v, emit (.busy v) ((s.withEnv s.env.afterBusy).withLastBusy (some v)))

/-! ## Transaction primitives -/

/-- The level of DC that tells the panel what a burst is: low for a command, high for data (R9, R54). -/
def dcLevel : WireKind → Level
  | .cmd  => .low
  | .data => .high

/-- `SendCommand(c)` (R73): one command byte in a chip-select window of its own, closed also after a fault. -/
def sendCommand (c : Byte) (s : State) : BusOutcome × State :=
  let s := pinWrite .dc .low s
  let s := pinWrite .cs .low s
  let (r, s) := busTransfer [c] s
  (r, pinWrite .cs .high s)

/-- `SendData(bs)` (R74): a parameter block or the frame in one chip-select window; nothing at all for an empty list.
A list longer than `FB_BYTES` is one burst as well: R74 against the bound of R36 and R54 (assumption log 31, the model's choice). -/
def sendData (bs : List Byte) (s : State) : BusOutcome × State :=
  match bs with
  | [] => (.ok, s)
  | b :: rest =>
    let s := pinWrite .dc .high s
    let s := pinWrite .cs .low s
    let (r, s) := busTransfer (b :: rest) s
    (r, pinWrite .cs .high s)

/-- `ghost panel_ram <- i`. -/
def setPanelRam (i : Image) (s : State) : State := s.withPanel { s.panel with ram := i }

/-- `ghost panel_visible <- i`. -/
def setPanelVisible (i : Image) (s : State) : State := s.withPanel { s.panel with visible := i }

/-- `ghost panel_cfg <- c`. -/
def setPanelConfig (c : PanelConfig) (s : State) : State := s.withPanel { s.panel with config := c }

/-- What can be said of the controller's RAM. The field `panel.ram` changes where R20, R95 and R109 say and nowhere else, so it
stands through SLEEP, as PA of 95_test_vectors.md has it; but U13 calls the RAM after deep sleep any value, and after a failed
SLEEP the panel may be asleep (R96). So its content is known only while the panel is configured (assumption log 28). -/
def ramKnown (s : State) : Image :=
  match s.panel.config with
  | .configured => s.panel.ram
  | .asleep | .undefined => .undefined

/-- `ResetPulse()` (R77): the hardware reset of the panel; what its RAM holds is undefined from here on. -/
def resetPulse (s : State) : State :=
  let s := pinWrite .rst .low (setPanelRam .undefined s)
  let s := delay s.cfg.tResetLowUs s
  let s := pinWrite .rst .high s
  delay s.cfg.tResetHighUs s

/-! ## The busy-wait protocol -/

/-- What a busy-wait returns (R76). -/
inductive WaitResult where
  | ok
  | timeout
  deriving DecidableEq, Repr

/-- `poll_cnt <- poll_cnt + 1`. -/
def countPoll (s : State) : State := s.withPollCnt (s.pollCnt.map (· + 1))

/-- The loop of `BusyWait()` with `left = N_POLL_MAX - poll_cnt` delays still allowed (R76). -/
def busyWaitLoop : Nat → State → WaitResult × State
  | left, s =>
    match sampleBusy s with
    | (.low, s) => (.ok, s)
    | (.high, s) =>
      match left with
      | 0 => (.timeout, s)
      | n + 1 => busyWaitLoop n (countPoll (delay s.cfg.tPollUs s))

/-- `BusyWait()` (R76): `poll_cnt` starts at 0 and the loop is bounded by `N_POLL_MAX` (R115). -/
def busyWait (s : State) : WaitResult × State := busyWaitLoop s.cfg.nPollMax (s.withPollCnt (some 0))

/-! ## Acceptance, refusal, failure, completion -/

/-- The end of an operation, in whichever way: `result` is written, `active` falls, `done` pulses, and the sequencer position
and the counters are dead (R12, R13, R16, R69). -/
def finish (r : Result) (s : State) : State :=
  (((((s.withResult r).withActive false).withDone true).withSeq none).withTblIdx none).withByteIdx none |>.withPollCnt none

/-- Refusal (R79): IllegalState, no event, the phase unchanged. -/
def refuse (s : State) : State := finish ⟨.illegalState, .none⟩ s

/-- Failure inside a body, `raise E(cause)` (R78, R109): Faulted, and the panel's configuration is no longer known. -/
def raise (e : Err) (c : Cause) (s : State) : State := finish ⟨e, c⟩ (setPanelConfig .undefined (s.withPhase .faulted))

/-- Completion, `complete(P)` (R69). -/
def complete (p : Phase) (s : State) : State := finish ⟨.ok, .none⟩ (s.withPhase p)

/-- Whether the operation guard lets an operation run: INITIALIZE always, the others in Ready only (R79). -/
def guardPasses (op : Instr) (p : Phase) : Bool := op == .initialise || p == .ready

/-- The operation guard (R79): accepts an operation word, then refuses it or runs its body. -/
def opGuard (op : Instr) (body : State → State) (s : State) : State :=
  let s := s.withActive true
  if guardPasses op s.phase then body s else refuse s

end Sys2Proof.Machine
end

