-- ==== Sys2Proof/Machine/DisplayFrame.lean ====
section
/-! DEFINITION. Machine/DisplayFrame.lean: DISPLAY_FRAME (44_display_frame.md, R90 to R93). -/

namespace Sys2Proof.Machine

/-- The body of DISPLAY_FRAME (R90, R91). -/
def displayFrameBody (s : State) : State :=
  match sendCommand s.cfg.cmdRefresh s with
  | (.fault _, s) => raise .transferError .busFault (setPanelVisible .undefined s)
  | (.ok, s) =>
    match busyWait (s.withPhase .refreshing) with
    | (.timeout, s) => raise .busyTimeout .busyTimeout (setPanelVisible .undefined s)
    | (.ok, s) => complete .ready (setPanelVisible s.panel.ram s)

/-- DISPLAY_FRAME (R90). -/
def execDisplayFrame (s : State) : Host.Outcome State Fault Refusal := .next (opGuard .displayFrame displayFrameBody s)

end Sys2Proof.Machine
end

