-- ==== Sys2Proof/Machine/Initialize.lean ====
section
/-! DEFINITION. Machine/Initialize.lean: INITIALIZE (42_initialize.md, R80 to R83). -/

namespace Sys2Proof.Machine

/-- `tbl_idx <- tbl_idx + 1`. -/
def countEntry (s : State) : State := s.withTblIdx (s.tblIdx.map (· + 1))

/-- One entry of the init table: its command, then, if that was delivered, its parameter block (R80 step 3). -/
def sendEntry (e : InitEntry) (s : State) : BusOutcome × State :=
  match sendCommand e.cmd s with
  | (.fault k, s) => (.fault k, s)
  | (.ok, s) => sendData e.params s

/-- Step 3 of R80: the entries in list order, up to the first burst that faults (R82, R140). -/
def sendTable : List InitEntry → State → BusOutcome × State
  | [], s => (.ok, s)
  | e :: es, s =>
    match sendEntry e s with
    | (.fault k, s) => (.fault k, s)
    | (.ok, s) => sendTable es (countEntry s)

/-- The body of INITIALIZE (R80). -/
def initialiseBody (s : State) : State :=
  let s := s.withPhase .uninitialized
  let s := pinWrite .cs .high s
  let s := resetPulse s
  match sendTable s.cfg.initTable (s.withTblIdx (some 0)) with
  | (.fault _, s) => raise .hardwareInitError .busFault s
  | (.ok, s) =>
    match busyWait s with
    | (.timeout, s) => raise .hardwareInitError .busyTimeout s
    | (.ok, s) => complete .ready (setPanelConfig .configured s)

/-- INITIALIZE (R80). -/
def execInitialise (s : State) : Host.Outcome State Fault Refusal := .next (opGuard .initialise initialiseBody s)

end Sys2Proof.Machine
end

