-- ==== Sys2Proof/Machine/Sleep.lean ====
section
/-! DEFINITION. Machine/Sleep.lean: SLEEP (45_sleep.md, R95 to R98). BUSY is never sampled. -/

namespace Sys2Proof.Machine

/-- The body of SLEEP (R95, R96). It writes `panel_cfg` only: the field `panel_ram` stands, on success and on failure (R20, R109), and
what can be said of the RAM from then on is `ramKnown`, nothing (U13; assumption log 28, the model's choice). -/
def sleepBody (s : State) : State :=
  match sendCommand s.cfg.cmdSleep s with
  | (.fault _, s) => raise .transferError .busFault s
  | (.ok, s) =>
    match sendData s.cfg.sleepParams s with
    | (.fault _, s) => raise .transferError .busFault s
    | (.ok, s) => complete .sleeping (setPanelConfig .asleep s)

/-- SLEEP (R95). -/
def execSleep (s : State) : Host.Outcome State Fault Refusal := .next (opGuard .sleep sleepBody s)

end Sys2Proof.Machine
end

