-- ==== Sys2Proof/Machine/UpdateFrame.lean ====
section
/-! DEFINITION. Machine/UpdateFrame.lean: UPDATE_FRAME (43_update_frame.md, R85 to R88). Every failure leaves ghost
`panel_ram` undefined (R20; assumption log 7). -/

namespace Sys2Proof.Machine

/-- The body of UPDATE_FRAME (R85, R86). -/
def updateFrameBody (s : State) : State :=
  let s := s.withPhase .transferringFrame
  match sendCommand s.cfg.cmdWriteRam s with
  | (.fault _, s) => raise .transferError .busFault (setPanelRam .undefined s)
  | (.ok, s) =>
    let data := frame s
    match sendData data s with
    | (.fault _, s) => raise .transferError .busFault (setPanelRam .undefined s)
    | (.ok, s) =>
      match busyWait (setPanelRam (.bytes data) s) with
      | (.timeout, s) => raise .busyTimeout .busyTimeout (setPanelRam .undefined s)
      | (.ok, s) => complete .ready s

/-- UPDATE_FRAME (R85). -/
def execUpdateFrame (s : State) : Host.Outcome State Fault Refusal := .next (opGuard .updateFrame updateFrameBody s)

end Sys2Proof.Machine
end

