-- ==== Sys2Proof/Machine/Dispatch.lean ====
section
/-! DEFINITION. Machine/Dispatch.lean: the meaning of every operation of the opcode table, one arm each. -/

namespace Sys2Proof.Machine

/-- What an accepted operation does, whole: the big step of R6. -/
def exec (i : Instr) (s : State) : Host.Outcome State Fault Refusal :=
  match i with
  | .initialise => Sys2Proof.Machine.execInitialise s
  | .updateFrame => Sys2Proof.Machine.execUpdateFrame s
  | .displayFrame => Sys2Proof.Machine.execDisplayFrame s
  | .sleep => Sys2Proof.Machine.execSleep s

end Sys2Proof.Machine
end

