-- ==== Sys2Proof/Decode.lean ====
section
/-! DEFINITION. Decode.lean: the operation word (R50, R51, R53, R61), read and written, and the carriage of words in bytes
that the host's files use. -/

namespace Sys2Proof

/-- R51: the operation an operation word selects. All four values of the two bits select one (R53). -/
def decode (w : OpWord) : Instr :=
  match w.toNat with
  | 0 => .initialise
  | 1 => .updateFrame
  | 2 => .displayFrame
  | _ => .sleep

/-- Why a list of bytes holds no operation word. -/
inductive DecodeError where
  /-- There is no byte, so there are no two bits. -/
  | noWord
  deriving DecidableEq, Repr

/-- The operation word a byte carries: bits 1:0, the field the mask 0x3 of the opcode table picks. The other six bits are
no wires of the port (R50; assumption log 4). -/
def wordOfByte (b : Byte) : OpWord := b.extractLsb' 0 2

/-- Reads the first operation word of a list of bytes, one word a byte, and gives the rest of the list back. -/
def decodeBytes : List Byte → Except DecodeError (Instr × List Byte)
  | [] => .error .noWord
  | b :: rest => .ok (decode (wordOfByte b), rest)

/-- The bytes of a number of `nbits` bits, the least significant byte first, the last byte filled up with zeros. -/
def bytesOfBits (nbits w : Nat) : List Byte :=
  (List.range ((nbits + 7) / 8)).map fun i => BitVec.ofNat 8 (w / 2 ^ (8 * i))

/-- The host's question: the instruction the decoder reads from the table's numbering of a word. -/
def decodeTableWord (nbits w : Nat) : Option Instr :=
  match decodeBytes (bytesOfBits nbits w) with
  | .ok (i, _) => some i
  | .error _ => none

/-- R51: the operation word of an operation. -/
def encode : Instr → OpWord
  | .initialise   => 0b00#2
  | .updateFrame  => 0b01#2
  | .displayFrame => 0b10#2
  | .sleep        => 0b11#2

/-- The mnemonic of an operation, as the opcode table and the listing syntax of R59 spell it. -/
def mnemonicOf : Instr → String
  | .initialise   => "INITIALIZE"
  | .updateFrame  => "UPDATE_FRAME"
  | .displayFrame => "DISPLAY_FRAME"
  | .sleep        => "SLEEP"

/-- R59: the operation a line of a listing names, if it names one. -/
def ofMnemonic (m : String) : Option Instr :=
  [Instr.initialise, .updateFrame, .displayFrame, .sleep].find? fun i => mnemonicOf i == m

/-- The packing of a program's words into one number that 95_test_vectors.md PA writes down, the first word in the low
bits. The block takes the words one at a time; nothing reads this number. -/
def packWords : List OpWord → Nat
  | [] => 0
  | w :: ws => w.toNat + 4 * packWords ws

end Sys2Proof
end

