-- ==== Sys2Proof/Machine/Framebuffer.lean ====
section
/-! DEFINITION. Machine/Framebuffer.lean: the framebuffer functions of the host side (40_framebuffer_ops.md, R65 to R67) and
the pixel layout (R32, R33). They run on the host: no state of the block changes. -/

namespace Sys2Proof.Machine

/-- A framebuffer value `(w, h, bytes)` (40_framebuffer_ops.md). -/
structure Framebuffer where
  w     : Nat
  h     : Nat
  bytes : List Byte
  deriving DecidableEq, Repr

/-- `ceil(w/8) * h`, the invariant-mandated size (R31, R66). -/
def fbSize (w h : Nat) : Nat := ((w + 7) / 8) * h

/-- FB_CREATE (R65). -/
def fbCreate (w h : Nat) : Except Err Framebuffer :=
  if w % 8 ≠ 0 then .error .invalidGeometry else .ok ⟨w, h, List.replicate ((w / 8) * h) 0x00#8⟩

/-- FB_FROM_BYTES (R66). -/
def fbFromBytes (w h : Nat) (bs : List Byte) : Except Err Framebuffer :=
  if bs.length ≠ fbSize w h then .error .sizeMismatch else .ok ⟨w, h, bs⟩

/-- FB_AS_BYTES (R67). -/
def fbAsBytes (f : Framebuffer) : List Byte := f.bytes

/-- `addr(x, y) = y * ROW_BYTES + x / 8` (R32). -/
def pixelAddr (c : Cfg) (x y : Nat) : Nat := y * c.rowBytes + x / 8

/-- `bit(x, y) = 7 - (x mod 8)` (R32). -/
def pixelBit (x : Nat) : Nat := 7 - x % 8

/-- `b[i]`, bit `i` of byte `b` (00_scope.md section 5). -/
def bitOf (b : Byte) (i : Nat) : Bool := b.getLsbD i

/-- `pixel(x, y) = fb[addr(x, y)][bit(x, y)]` (R32). -/
def pixel (s : State) (x y : Nat) : Bool := bitOf (fbByte s (pixelAddr s.cfg x y)) (pixelBit x)

/-- The pixel in a list of bytes laid out as a framebuffer of the configuration (R32, R67). -/
def pixelIn (c : Cfg) (bs : List Byte) (x y : Nat) : Option Bool :=
  (bs[pixelAddr c x y]?).map fun b => bitOf b (pixelBit x)

/-- Whether the panel's convention calls a pixel white (R33): informative, no operation reads it. -/
def pixelIsWhite (s : State) (x y : Nat) : Bool := BitVec.ofBool (pixel s x y) == s.cfg.pixelWhiteBit

end Sys2Proof.Machine
end

