-- ==== Sys2Proof/Machine/Sequencer.lean ====
section
/-! DEFINITION. Machine/Sequencer.lean: the small step of R6: acceptance, and the advance of a running operation by one
position (R12). An event is one position; a burst is as many positions as it has bytes to hand to the bus, plus the one that
answers it, so that `byte_idx` counts as R16 says. A completion, a failure or a phase change that the pseudocode puts after
an event belongs to that event's position, since no event stands between them (R82, R86, R90, R91, R96). -/

namespace Sys2Proof.Machine

/-- Moves the running operation's position. -/
def goto (q : Seq) (p : Pos) (s : State) : State := s.withSeq (some { q with pos := p })

/-- The body's first position, and the phase an operation takes at acceptance (R81, R85, D17). -/
def firstPos (op : Instr) (s : State) : State :=
  let q : Seq := ⟨op, s.trace.length, .csIdle⟩
  match op with
  | .initialise   => goto q .csIdle (s.withPhase .uninitialized)
  | .updateFrame  => goto q (.window .cmd .dc) (s.withPhase .transferringFrame)
  | .displayFrame => goto q (.window .cmd .dc) s
  | .sleep        => goto q (.window .cmd .dc) s

/-- Acceptance of an operation word (R50, R79): the guard, and on passing it the body's first position. -/
def startOp (op : Instr) (s : State) : State := opGuard op (firstPos op) s

/-- Enters a busy-wait: `poll_cnt <- 0` (R76). -/
def startPoll (q : Seq) (s : State) : State := goto q .sample (s.withPollCnt (some 0))

/-- Step 3 of INITIALIZE at entry `tbl_idx`: the entry's command, or step 4 when every entry is sent (R80). -/
def enterEntry (q : Seq) (s : State) : State :=
  if s.tblIdx.getD 0 < s.cfg.initTable.length then goto q (.window .cmd .dc) s else startPoll q s

/-- What follows a delivered parameter or data block (R80, R85, R95). SLEEP leaves `panel_ram` (assumption log 28). -/
def dataSent (q : Seq) (s : State) : State :=
  match q.op with
  | .initialise   => enterEntry q (countEntry s)
  | .updateFrame  => startPoll q (setPanelRam (.bytes (frame s)) s)
  | .displayFrame => startPoll q s
  | .sleep        => complete .sleeping (setPanelConfig .asleep s)

/-- The window of a parameter or data block, or what follows it when the block is empty (R74). -/
def startData (q : Seq) (s : State) : State :=
  if (burstBytes q.op .data s).isEmpty then dataSent q s else goto q (.window .data .dc) s

/-- What follows a delivered command byte (R80, R85, R90, R95). -/
def commandSent (q : Seq) (s : State) : State :=
  match q.op with
  | .initialise   => startData q s
  | .updateFrame  => startData q s
  | .displayFrame => startPoll q (s.withPhase .refreshing)
  | .sleep        => startData q s

/-- What follows a faulted burst (R82, R86, R91, R96). -/
def burstFailed (op : Instr) (s : State) : State :=
  match op with
  | .initialise   => raise .hardwareInitError .busFault s
  | .updateFrame  => raise .transferError .busFault (setPanelRam .undefined s)
  | .displayFrame => raise .transferError .busFault (setPanelVisible .undefined s)
  | .sleep        => raise .transferError .busFault s

/-- What follows a busy-wait that saw BUSY low (R80, R85, R90). SLEEP has no busy-wait. -/
def waitPassed (op : Instr) (s : State) : State :=
  match op with
  | .initialise   => complete .ready (setPanelConfig .configured s)
  | .updateFrame  => complete .ready s
  | .displayFrame => complete .ready (setPanelVisible s.panel.ram s)
  | .sleep        => complete .ready s

/-- What follows a busy-wait that ran out (R82, R86, R91). SLEEP has no busy-wait. -/
def waitFailed (op : Instr) (s : State) : State :=
  match op with
  | .initialise   => raise .hardwareInitError .busyTimeout s
  | .updateFrame  => raise .busyTimeout .busyTimeout (setPanelRam .undefined s)
  | .displayFrame => raise .busyTimeout .busyTimeout (setPanelVisible .undefined s)
  | .sleep        => raise .busyTimeout .busyTimeout s

/-- How many bytes of a burst are handed to the bus before it is answered: all of them, or those before the faulting one
(R72: `byte_idx` runs to `len(bytes)`, or to `k`). -/
def burstTarget (len : Nat) : BusOutcome → Nat
  | .ok => len
  | .fault k => k

/-- One position of a burst: one more byte handed to the bus, or the bus engine's answer (R72). The answer is looked at from the
first byte on, since `byte_idx` counts by it, and used up at the end of the burst or by a block reset that cuts it
(assumption log 30). -/
def burstStep (q : Seq) (k : WireKind) (s : State) : State :=
  let bs := burstBytes q.op k s
  let n := s.byteIdx.getD 0
  if n < burstTarget bs.length (s.env.nextBus bs.length) then s.withByteIdx (some (n + 1))
  else
    let (r, s) := busTransfer bs s
    goto q (.window k (.csHigh r)) s

/-- One position of a chip-select window (R73, R74). -/
def windowStep (q : Seq) (k : WireKind) (w : WinPos) (s : State) : State :=
  match w with
  | .dc    => goto q (.window k .csLow) (pinWrite .dc (dcLevel k) s)
  | .csLow => goto q (.window k .burst) ((pinWrite .cs .low s).withByteIdx (some 0))
  | .burst => burstStep q k s
  | .csHigh r =>
    let s := pinWrite .cs .high s
    match r, k with
    | .fault _, _ => burstFailed q.op s
    | .ok, .cmd   => commandSent q s
    | .ok, .data  => dataSent q s

/-- One sample of a busy-wait (R76). -/
def sampleStep (q : Seq) (s : State) : State :=
  match sampleBusy s with
  | (.low, s) => waitPassed q.op s
  | (.high, s) => if s.pollCnt.getD 0 < s.cfg.nPollMax then goto q .pollDelay s else waitFailed q.op s

/-- The advance of a running operation by one position (R12). -/
def microStep (q : Seq) (s : State) : State :=
  match q.pos with
  | .csIdle      => goto q .rstLow (pinWrite .cs .high s)
  | .rstLow      => goto q .rstLowWait (pinWrite .rst .low (setPanelRam .undefined s))
  | .rstLowWait  => goto q .rstHigh (delay s.cfg.tResetLowUs s)
  | .rstHigh     => goto q .rstHighWait (pinWrite .rst .high s)
  | .rstHighWait => enterEntry q ((delay s.cfg.tResetHighUs s).withTblIdx (some 0))
  | .window k w  => windowStep q k w s
  | .sample      => sampleStep q s
  | .pollDelay   => goto q .sample (countPoll (delay s.cfg.tPollUs s))

/-- One step of time with no host action taken: a running operation advances; an idle block does nothing (R131). -/
def advance (s : State) : Host.Outcome State Fault Refusal :=
  if s.active then
    match s.seq with
    | some q => .next (microStep q s)
    | none => .fault .noSequencerPosition
  else .next s

/-- The events the running operation has emitted so far (R12). -/
def Seq.emitted (q : Seq) (s : State) : List Event := s.trace.drop q.start

end Sys2Proof.Machine
end

