-- ==== Sys2Proof/Machine/HostPort.lean ====
section
/-! DEFINITION. Machine/HostPort.lean: what the host does to the block (R121): the framebuffer write port (R38), the whole
load (R68), which action is taken and which requests are held off (R50), block reset and its effect on a running operation
(R130, R132), the power cycle (R21), and the listing syntax of host programs (R59, R60). -/

namespace Sys2Proof.Machine

/-! ## The operation port's signals (R50) -/

/-- `op_valid`: the host presents an operation word. -/
def opValid (s : State) : Bool :=
  match s.host with
  | .call _ :: _ | .start _ :: _ => true
  | _ => false

/-- `op_code[1:0]`: the word presented, if one is. -/
def opCode (s : State) : Option OpWord :=
  match s.host with
  | .call w :: _ | .start w :: _ => some w
  | _ => none

/-! ## Hold-off -/

/-- Whether an action is a request, which a running operation holds off (R50, R38): an operation word, a port write, a load. -/
def HostAction.isRequest : HostAction → Bool
  | .call _ | .start _ | .memWrite _ _ | .fbLoad _ => true
  | .idle | .blockReset | .powerCycle => false

/-- While an operation runs: the first action that is no request, and the actions without it. The requests before it stay where
they are, held off (R121: block reset is possible at any time). -/
def takeFree : List HostAction → Option HostAction × List HostAction
  | [] => (none, [])
  | a :: rest => if a.isRequest then ((takeFree rest).1, a :: (takeFree rest).2) else (some a, rest)

/-- The action a step takes, and the actions left for later: of an idle block the oldest one, of a running one the oldest that
is not held off. -/
def takeAction (active : Bool) (l : List HostAction) : Option HostAction × List HostAction :=
  if active then takeFree l else (l.head?, l.tail)

/-! ## The framebuffer write port -/

/-- `MemWrite(addr, n, v)` on the port of an idle block (R38). An address at or beyond `FB_BYTES` does not exist. A write of no bytes
stores nothing, `addr <= FB_BYTES` granted (assumption log 32, the model's choice). -/
def memWrite (addr : Nat) (bs : List Byte) (s : State) : Host.Outcome State Fault Refusal :=
  if addr + bs.length ≤ s.cfg.fbBytes then .next (s.withFb (s.fb.writeBytes addr bs)) else .fault .fbAddress

/-- FB_LOAD on an idle block (R68): the length check, then the write of the whole buffer. The host sees the outcome. The check is
on the length alone, so that bytes of a framebuffer whose width is no multiple of 8, which R66 says can never be loaded, are
accepted where their count is `FB_BYTES` (assumption log 29, the model's choice). -/
def fbLoad (bs : List Byte) (s : State) : State :=
  if bs.length ≠ s.cfg.fbBytes then s.withLoadErr .sizeMismatch
  else (s.withFb (s.fb.writeBytes 0 bs)).withLoadErr .ok

/-! ## Reset and power -/

/-- Whether an event is a burst. -/
def isBus : Event → Bool
  | .bus _ _ => true
  | _ => false

/-- Whether the running operation has put anything on the bus: a `Bus` event of its own (R132), or, inside a burst not yet
answered, a byte already handed over (U3; assumption log 8). -/
def busTouched (s : State) : Bool :=
  match s.seq with
  | some q => (q.emitted s).any isBus || decide (0 < s.byteIdx.getD 0)
  | none => true

/-- The ghost state after a block reset: unchanged, unless the reset cuts an operation short (R20, R132). -/
def panelAfterReset (s : State) : Panel :=
  if s.active then
    if busTouched s then ⟨.undefined, .undefined, .undefined⟩ else { s.panel with config := .undefined }
  else s.panel

/-- The coming answers after a block reset. A burst that the reset cuts uses up its answer, although its event is never emitted:
`byte_idx` has already counted by it, so that what the next burst is answered stays free (R7; assumption log 30, the model's
choice). -/
def envAfterReset (s : State) : Env :=
  match s.byteIdx with
  | none => s.env
  | some _ => s.env.afterBus

/-- Block reset (R130): every field of R10 takes its reset value, `fb` is unspecified anew, no event is emitted. The panel,
the environment, the host and the run's trace are outside the block (assumption log 11). -/
def blockReset (s : State) : State :=
  { State.reset with
    panel   := panelAfterReset s
    cfg     := s.cfg
    trace   := s.trace
    env     := envAfterReset s
    fbEpoch := s.fbEpoch + 1
    host    := s.host
    loadErr := s.loadErr }

/-- A power cycle of block and panel, up to the release of block reset: the first reset after power-up (R21). -/
def powerCycle (s : State) : State := (blockReset s).withPanel State.reset.panel

/-! ## Listings of host programs -/

/-- `SHOW <bytes>` (R60). -/
def showActions (bs : List Byte) : List HostAction := [.fbLoad bs, .call (encode .updateFrame), .call (encode .displayFrame)]

/-- `RECOVER <bytes>` (R60, R111). -/
def recoverActions (bs : List Byte) : List HostAction := .call (encode .initialise) :: showActions bs

/-- A program's encoding: the list of its operation words in order; host actions without an op_code give none (R59). -/
def programWords (p : List HostAction) : List OpWord :=
  p.filterMap fun a =>
    match a with
    | .call w | .start w => some w
    | _ => none

/-- The actions of a listing are well formed for a configuration: a port write stays inside `fb` (R38). A write of no bytes is one
that stores nothing (assumption log 32, the model's choice). A load of any length is well formed: the load checks it (R68). -/
def HostAction.wf (c : Cfg) : HostAction → Bool
  | .memWrite a bs => a + bs.length ≤ c.fbBytes
  | _ => true

/-- The end of a run: the host asks nothing more and no operation is running (R123). -/
def runEnded (s : State) : Bool := s.host.isEmpty && !s.active

end Sys2Proof.Machine
end

