-- ==== Sys2Proof/Machine/Trace.lean ====
section
/-! DEFINITION. Machine/Trace.lean: what can be read off an event trace: the wire view (R9) and the time asked of the timer
(R143, D26). -/

namespace Sys2Proof.Machine

/-- The kind of the bytes sent while DC is at a level (R9). -/
def kindOfDc : Level → WireKind
  | .low  => .cmd
  | .high => .data

/-- The bytes of a burst that were delivered: all, or those before the faulting one, whose own delivery is unknown (R9, R72,
U10). -/
def delivered (bs : List Byte) : BusOutcome → List Byte
  | .ok => bs
  | .fault k => bs.take k

/-- The wire view of a trace, `dc` being the level DC was last driven to before it. A burst before the first `Pin(DC, _)` of a
run is never issued (R9) and counts as nothing. -/
def wireFrom (dc : Option Level) : List Event → List (WireKind × Byte)
  | [] => []
  | .pin .dc v :: es => wireFrom (some v) es
  | .bus bs r :: es =>
    (match dc with
      | some v => (delivered bs r).map fun b => (kindOfDc v, b)
      | none => []) ++ wireFrom dc es
  | .pin .cs _ :: es => wireFrom dc es
  | .pin .rst _ :: es => wireFrom dc es
  | .delay _ :: es => wireFrom dc es
  | .busy _ :: es => wireFrom dc es

/-- The wire view of a run's trace (R9). -/
def wireView (es : List Event) : List (WireKind × Byte) := wireFrom none es

/-- The sum of the delays asked for, in microseconds: a lower bound of the time they took (R143). -/
def requestedDelay : List Event → Nat
  | [] => 0
  | .delay us :: es => us + requestedDelay es
  | .pin _ _ :: es => requestedDelay es
  | .bus _ _ :: es => requestedDelay es
  | .busy _ :: es => requestedDelay es

end Sys2Proof.Machine
end

