-- ==== Sys2Proof/Machine/Step.lean ====
section
/-! DEFINITION. Machine/Step.lean: one step of the machine. The host's oldest action is taken, or, while an operation runs, the
oldest that is not held off (R50, R38), block reset at any time (R132); a running operation advances (R12); an idle block with no
request does nothing (R131). -/

namespace Sys2Proof.Machine

/-- One step with the host's action `a`, which takeAction lets through: a request reaches an idle block only. -/
def hostStep (a : HostAction) (s : State) : Host.Outcome State Fault Refusal :=
  match a with
  | .call w => exec (decode w) s
  | .start w => .next (startOp (decode w) s)
  | .idle => advance s
  | .memWrite addr bs => memWrite addr bs s
  | .fbLoad bs => .next (fbLoad bs s)
  | .blockReset => .next (blockReset s)
  | .powerCycle => .next (powerCycle s)

/-- One step of the machine; the done pulse of an earlier step falls. -/
def step (s : State) : Host.Outcome State Fault Refusal :=
  match takeAction s.active s.host with
  | (none, _) => advance (s.withDone false)
  | (some a, rest) => hostStep a ((s.withDone false).withHost rest)

/-- `s` with an operation word at the operation port of an idle block, as the host's oldest action, so that the next step
accepts it and runs the operation whole (assumption log 4). -/
def State.withFetchWord (s : State) (nbits w : Nat) : State :=
  ((s.withActive false).withSeq none).withHost (.call (BitVec.ofNat 2 (w % 2 ^ nbits)) :: s.host)

end Sys2Proof.Machine
end

