-- ==== Sys2Proof/WellFormed.lean ====
section
/-! DEFINITION. WellFormed.lean: what must hold of the written-down parts of a machine before it runs: of an operation
(nothing, R52) and of a configuration (R4, D29), one named check each. -/

namespace Sys2Proof

/-- Every operation word is well formed: there is no operand to check (R52) and no illegal value (R53). -/
def Instr.wf (_ : Instr) : Bool := true

/-- `WIDTH >= 8` (R4). -/
def Cfg.widthAtLeast8 (c : Cfg) : Bool := 8 ≤ c.width

/-- `WIDTH mod 8 = 0` (R4, R35). -/
def Cfg.widthWholeBytes (c : Cfg) : Bool := c.width % 8 == 0

/-- `HEIGHT >= 1` (R4). -/
def Cfg.heightPositive (c : Cfg) : Bool := 1 ≤ c.height

/-- `N_POLL_MAX >= 1` (R4). -/
def Cfg.pollBoundPositive (c : Cfg) : Bool := 1 ≤ c.nPollMax

/-- `SLEEP_PARAMS` is not empty (R4). -/
def Cfg.sleepParamsPresent (c : Cfg) : Bool := !c.sleepParams.isEmpty

/-- The constraints on a configuration (R4, D29). No operation needs them: the rules give every operation its meaning
without them (V34, R97(f)); a claim that needs one names it. The length of a parameter block has no upper bound here, since D29 gives
none, though R36, R54 and R16 call `FB_BYTES` the longest burst (assumption log 31, the model's choice). -/
def Cfg.wf (c : Cfg) : Bool :=
  c.widthAtLeast8 && c.widthWholeBytes && c.heightPositive && c.pollBoundPositive && c.sleepParamsPresent

end Sys2Proof
end

