-- ==== Sys2Proof/Safety.lean ====
section
/-! DEFINITION. Safety.lean: the terms the statements are made in: an idle block, the environment's coming answers by number,
the premises of R146, the traces the spec writes down, and the invariant of the machine. -/

namespace Sys2Proof.Machine

/-- The block between operations (R12): no operation running, the sequencer position and the counters dead. -/
def Idle (s : State) : Prop :=
  s.active = false ∧ s.seq = none ∧ s.tblIdx = none ∧ s.byteIdx = none ∧ s.pollCnt = none

/-! ## The environment's coming answers (R7) -/

/-- The environment's answer to the burst number `n` from now, counting from 0: from the script, or free. -/
def Env.busAt (e : Env) (n : Nat) : BusOutcome :=
  match e.busScript[n]? with
  | some r => r
  | none => Config.freeBus (e.busDraws + (n - e.busScript.length))

/-- The level of BUSY at the sample number `n` from now, counting from 0: from the script, or free. -/
def Env.busyAt (e : Env) (n : Nat) : Level :=
  match e.busyScript[n]? with
  | some v => v
  | none => Config.freeBusy (e.busyDraws + (n - e.busyScript.length))

/-- The next `n` bursts are answered `ok`: premise P1 of R146 for as long as an operation lasts. -/
def BusOkFor (n : Nat) (e : Env) : Prop := ∀ j < n, e.busAt j = .ok

/-- BUSY reads high `w` times and then low: premise P2 of R146 for one busy-wait, with `w <= N_POLL_MAX`. -/
def BusyClearsAfter (w : Nat) (e : Env) : Prop := (∀ j < w, e.busyAt j = .high) ∧ e.busyAt w = .low

/-- BUSY reads high for `n` samples. -/
def BusyHighFor (n : Nat) (e : Env) : Prop := ∀ j < n, e.busyAt j = .high

/-- The panel is responsive at the next `n` samples and after each of them: among the `N_POLL_MAX + 1` samples from there on one
is low. It implies P2 of R146 for every busy-wait that starts within those samples (assumption log 22). -/
def ResponsiveFor (n : Nat) (c : Cfg) (e : Env) : Prop := ∀ m < n, ∃ w ≤ c.nPollMax, e.busyAt (m + w) = .low

/-- P4 of R146, loaded frame: every byte of `fb` has been written since the block reset. -/
def LoadedFrame (s : State) : Prop := ∀ a < s.cfg.fbBytes, (s.fb.read a).isSome

/-- P6 of R146, quiet host, for one step: while an operation runs the host asserts no block reset and cuts no power. The actions
that R121 marks "never" have no move in the model (assumption log 17). -/
def QuietHost (s : State) : Prop :=
  s.active = true → (takeFree s.host).1 ≠ some .blockReset ∧ (takeFree s.host).1 ≠ some .powerCycle

/-- P6 of R146 for the next `n` steps of a run. -/
def QuietRun (n : Nat) (s : State) : Prop :=
  ∀ m < n, ∀ t : State, Host.Core.run Sys2Proof.core m s = .next t → QuietHost t

/-- What a panel's datasheet prescribes for the configuration (R142, R135, R33, U5, U6): the geometry, the init table that programs
it, the command bytes and the check code, the least times of the reset pulse, the longest time BUSY stays high, and which value of a
pixel bit is white. -/
structure Datasheet where
  width       : Nat
  height      : Nat
  initTable   : List InitEntry
  cmdWriteRam : Byte
  cmdRefresh  : Byte
  cmdSleep    : Byte
  sleepParams : List Byte
  resetLowUs  : Nat
  resetHighUs : Nat
  longestBusyUs : Nat
  pixelWhiteBit : BitVec 1
  deriving DecidableEq, Repr

/-- P5 of R146, matching configuration: the configuration is the one the panel's datasheet prescribes. A claim about the real panel
behind the ghost state needs it (U5; assumption log 22). -/
structure MatchingConfiguration (d : Datasheet) (c : Cfg) : Prop where
  geometry    : c.width = d.width ∧ c.height = d.height
  initTable   : c.initTable = d.initTable
  commands    : c.cmdWriteRam = d.cmdWriteRam ∧ c.cmdRefresh = d.cmdRefresh ∧ c.cmdSleep = d.cmdSleep
  sleepParams : c.sleepParams = d.sleepParams
  resetTimes  : d.resetLowUs ≤ c.tResetLowUs ∧ d.resetHighUs ≤ c.tResetHighUs
  timeout     : d.longestBusyUs < c.busyTimeoutUs
  polarity    : c.pixelWhiteBit = d.pixelWhiteBit

/-- The panel keeps its datasheet's time at the next busy-wait: a sample that comes after delays of at least that time reads low. -/
def KeepsBusyTime (d : Datasheet) (c : Cfg) (e : Env) : Prop :=
  ∀ n ≤ c.nPollMax, d.longestBusyUs ≤ n * c.tPollUs → e.busyAt n = .low

/-! ## The traces the spec writes down -/

/-- The four events of `SendCommand(c)` answered `r` (R73). -/
def commandTrace (c : Byte) (r : BusOutcome) : List Event := [.pin .dc .low, .pin .cs .low, .bus [c] r, .pin .cs .high]

/-- The events of `SendData(bs)` answered `r`: four, or none for an empty list (R74). -/
def dataTrace (bs : List Byte) (r : BusOutcome) : List Event :=
  if bs = [] then [] else [.pin .dc .high, .pin .cs .low, .bus bs r, .pin .cs .high]

/-- The first five events of INITIALIZE: chip select high, then the reset pulse (R77, R80). -/
def bringUpTrace (c : Cfg) : List Event :=
  [.pin .cs .high, .pin .rst .low, .delay c.tResetLowUs, .pin .rst .high, .delay c.tResetHighUs]

/-- `n` times a high sample and the delay after it (R76). -/
def pollTrace (us : Nat) : Nat → List Event
  | 0 => []
  | n + 1 => .busy .high :: .delay us :: pollTrace us n

/-- The events of a busy-wait that saw BUSY low after `w` high samples (R76). -/
def waitTrace (us w : Nat) : List Event := pollTrace us w ++ [.busy .low]

/-- The events of a busy-wait that ran out after `n` delays (R76). -/
def timeoutTrace (us n : Nat) : List Event := pollTrace us n ++ [.busy .high]

/-- The events of one chip-select window, of a command byte or a data block, answered `r` (R73, R74). -/
def windowTrace (w : WireKind × List Byte) (r : BusOutcome) : List Event :=
  [.pin .dc (dcLevel w.1), .pin .cs .low, .bus w.2 r, .pin .cs .high]

/-- The events of windows that are all answered `ok`. -/
def okTrace : List (WireKind × List Byte) → List Event
  | [] => []
  | w :: ws => windowTrace w .ok ++ okTrace ws

/-- The window of a parameter or data block; an empty block has none (R74). -/
def dataWindows (bs : List Byte) : List (WireKind × List Byte) := if bs = [] then [] else [(.data, bs)]

/-- The windows of the init table: per entry its command, then its parameter block (R80 step 3, R83(c)). -/
def tableWindows : List InitEntry → List (WireKind × List Byte)
  | [] => []
  | e :: es => (.cmd, [e.cmd]) :: dataWindows e.params ++ tableWindows es

/-- The windows of an operation, in order (R54, R80, R85, R90, R95). -/
def opWindows (s : State) : Instr → List (WireKind × List Byte)
  | .initialise   => tableWindows s.cfg.initTable
  | .updateFrame  => (.cmd, [s.cfg.cmdWriteRam]) :: dataWindows (frame s)
  | .displayFrame => [(.cmd, [s.cfg.cmdRefresh])]
  | .sleep        => (.cmd, [s.cfg.cmdSleep]) :: dataWindows s.cfg.sleepParams

/-- What an operation emits before its first window: the bring-up of INITIALIZE, and nothing of the others. -/
def opPrelude (c : Cfg) : Instr → List Event
  | .initialise => bringUpTrace c
  | .updateFrame | .displayFrame | .sleep => []

/-- The result of an operation one of whose bursts faults (R100). -/
def busFaultResult : Instr → Result
  | .initialise => ⟨.hardwareInitError, .busFault⟩
  | .updateFrame | .displayFrame | .sleep => ⟨.transferError, .busFault⟩

/-- The result of an operation whose busy-wait runs out (R100). -/
def timeoutResult : Instr → Result
  | .initialise => ⟨.hardwareInitError, .busyTimeout⟩
  | .updateFrame | .displayFrame | .sleep => ⟨.busyTimeout, .busyTimeout⟩

/-- The phase an operation completes in (R11). -/
def targetPhase : Instr → Phase
  | .initialise | .updateFrame | .displayFrame => .ready
  | .sleep => .sleeping

/-- The level a line was last driven to by some events, `v` being its level before them (R14, R70). -/
def lastPin (l : Line) (v : Option Level) : List Event → Option Level
  | [] => v
  | .pin l' x :: es => lastPin l (if l' = l then some x else v) es
  | .delay _ :: es => lastPin l v es
  | .bus _ _ :: es => lastPin l v es
  | .busy _ :: es => lastPin l v es

/-- The level BUSY was last sampled at by some events, `v` being the last sample before them (R15, R75). -/
def lastSample (v : Option Level) : List Event → Option Level
  | [] => v
  | .busy x :: es => lastSample (some x) es
  | .pin _ _ :: es => lastSample v es
  | .delay _ :: es => lastSample v es
  | .bus _ _ :: es => lastSample v es

/-- Whether an event is a sample of BUSY. -/
def isBusy : Event → Bool
  | .busy _ => true
  | _ => false

/-- Among the events `es`, emitted after the events `p`, a command byte is put on the bus: a one-byte burst while DC is low. -/
def CommandIn (p es : List Event) : Prop :=
  ∃ p' c r q, es = p' ++ Event.bus [c] r :: q ∧ lastPin .dc none (p ++ p') = some .low

/-- P3 of R146, well-behaved BUSY, for a run with the events `es`: `line p` is the level of the BUSY line once the events `p`
have been emitted (assumption log 22). -/
structure WellBehavedBusy (line : List Event → Level) (es : List Event) : Prop where
  /-- Every sample reads the line (R75). -/
  sampled : ∀ p v q, es = p ++ Event.busy v :: q → line p = v
  /-- The panel raises the line only in response to a command byte, and before the next sample. -/
  raised : ∀ p e q, es = p ++ e :: q → line p = .low → line (p ++ [e]) = .high →
    ∃ p₁ p₂, p ++ [e] = p₁ ++ p₂ ∧ CommandIn p₁ p₂ ∧ p₂.any isBusy = false
  /-- It does raise it for a command byte delivered to it, before the next sample. -/
  prompt : ∀ p c q v q', es = p ++ Event.bus [c] .ok :: q ++ Event.busy v :: q' → lastPin .dc none p = some .low →
    q.any isBusy = false → ∃ q₁ q₂, q = q₁ ++ q₂ ∧ line (p ++ Event.bus [c] .ok :: q₁) = .high
  /-- It lowers the line once and then keeps it low until the next command byte. -/
  kept : ∀ p a b q, es = p ++ a ++ b ++ q → line p = .high → line (p ++ a) = .low → line (p ++ a ++ b) = .high →
    CommandIn p (a ++ b)

/-- Whether an event is a delay. -/
def isDelay : Event → Bool
  | .delay _ => true
  | _ => false

/-- Whether an event is a write of the RESET line. -/
def isRstPin : Event → Bool
  | .pin .rst _ => true
  | _ => false

/-- The bound of R145 on the number of events of one operation. -/
def eventBound (c : Cfg) : Instr → Nat
  | .initialise   => 5 + 8 * c.initTable.length + 2 * c.nPollMax + 1
  | .updateFrame  => 8 + 2 * c.nPollMax + 1
  | .displayFrame => 4 + 2 * c.nPollMax + 1
  | .sleep        => 8

/-- A burst as R73 and R74 send it: not empty, one byte when DC is low, and with a legal answer (R72). -/
def legalBurst (dc : Level) (bs : List Byte) (r : BusOutcome) : Bool :=
  !bs.isEmpty && (dc == .high || bs.length == 1) &&
    match r with
    | .ok => true
    | .fault k => k < bs.length

/-- The deassertion of CS that opens INITIALIZE, and no other operation (R80). -/
def csOpening : Instr → List Event
  | .initialise => [.pin .cs .high]
  | .updateFrame | .displayFrame | .sleep => []

/-- The chip-select discipline of R139 on the events of whole operations: every burst lies alone between a `Pin(CS, low)` and
a `Pin(CS, high)`, DC is written just before, and CS and DC are written nowhere else. -/
def windowed : List Event → Bool
  | [] => true
  | .pin .dc v :: .pin .cs .low :: .bus bs r :: .pin .cs .high :: es => legalBurst v bs r && windowed es
  | .pin .rst _ :: es => windowed es
  | .delay _ :: es => windowed es
  | .busy _ :: es => windowed es
  | _ => false

/-! ## The invariant -/

/-- The positions an operation's pseudocode has (R80, R85, R90, R95). -/
def posAllowed : Instr → Pos → Bool
  | .initialise, _ => true
  | .updateFrame, .window _ _ => true
  | .updateFrame, .sample => true
  | .updateFrame, .pollDelay => true
  | .displayFrame, .window .cmd _ => true
  | .displayFrame, .sample => true
  | .displayFrame, .pollDelay => true
  | .sleep, .window _ _ => true
  | _, _ => false

/-- The phase the status output shows at a position of a running operation (R11, R81, R85, R90, R95, D17). -/
def phaseAt : Instr → Pos → Phase
  | .initialise, _ => .uninitialized
  | .updateFrame, _ => .transferringFrame
  | .displayFrame, .sample => .refreshing
  | .displayFrame, .pollDelay => .refreshing
  | .displayFrame, _ => .ready
  | .sleep, _ => .ready

/-- The lines at a position of a running operation: CS is low exactly from the `Pin(CS, low)` to the `Pin(CS, high)` of a
window, RESET exactly during the low part of the reset pulse, and DC stands for the window's kind (R139, R77, R73, R74). At the first
position of INITIALIZE CS and RESET may have no value yet (R21). -/
def LinesAt (s : State) : Pos → Prop
  | .csIdle => s.cs ≠ some .low ∧ s.rst ≠ some .low
  | .rstLow => s.cs = some .high ∧ s.rst ≠ some .low
  | .rstLowWait => s.cs = some .high ∧ s.rst = some .low
  | .rstHigh => s.cs = some .high ∧ s.rst = some .low
  | .rstHighWait => s.cs = some .high ∧ s.rst = some .high
  | .window _ .dc => s.rst = some .high ∧ s.cs = some .high
  | .window k .csLow => s.rst = some .high ∧ s.cs = some .high ∧ s.dc = some (dcLevel k)
  | .window k .burst => s.rst = some .high ∧ s.cs = some .low ∧ s.dc = some (dcLevel k)
  | .window k (.csHigh _) => s.rst = some .high ∧ s.cs = some .low ∧ s.dc = some (dcLevel k)
  | .sample => s.rst = some .high ∧ s.cs = some .high
  | .pollDelay => s.rst = some .high ∧ s.cs = some .high

/-- `tbl_idx` at a position (R16): alive from the init table on, inside the table while an entry is being sent, and its
length once all are sent. -/
def TblIdxAt (s : State) : Instr → Pos → Prop
  | .initialise, .window _ _ => ∃ n < s.cfg.initTable.length, s.tblIdx = some n
  | .initialise, .sample => s.tblIdx = some s.cfg.initTable.length
  | .initialise, .pollDelay => s.tblIdx = some s.cfg.initTable.length
  | _, _ => s.tblIdx = none

/-- `byte_idx` at a position (R16): alive inside a burst only, and bounded by its length, which is above `FB_BYTES` where a parameter
block is longer than that (assumption log 31, the model's choice). -/
def ByteIdxAt (s : State) (op : Instr) : Pos → Prop
  | .window k .burst => ∃ n ≤ (burstBytes op k s).length, s.byteIdx = some n
  | _ => s.byteIdx = none

/-- `poll_cnt` at a position (R16, R115): alive inside a busy-wait only, and bounded by `N_POLL_MAX`. -/
def PollCntAt (s : State) : Pos → Prop
  | .sample => ∃ n ≤ s.cfg.nPollMax, s.pollCnt = some n
  | .pollDelay => ∃ n < s.cfg.nPollMax, s.pollCnt = some n
  | _ => s.pollCnt = none

/-- No window is opened for an empty list, so no burst is empty (R72, R74). -/
def BurstNotEmpty (s : State) (op : Instr) : Pos → Prop
  | .window k _ => burstBytes op k s ≠ []
  | _ => True

/-- A running operation stands where its pseudocode can stand. -/
structure Running (q : Seq) (s : State) : Prop where
  position : posAllowed q.op q.pos
  phase    : s.phase = phaseAt q.op q.pos
  lines    : LinesAt s q.pos
  tblIdx   : TblIdxAt s q.op q.pos
  byteIdx  : ByteIdxAt s q.op q.pos
  pollCnt  : PollCntAt s q.pos
  burst    : BurstNotEmpty s q.op q.pos
  start    : q.start ≤ s.trace.length

/-- The invariant of the machine: what every state of a run satisfies. -/
structure Inv (s : State) : Prop where
  /-- The framebuffer memory is in its canonical form. -/
  fbCanonical : s.fb.wf
  /-- Only addresses that exist have been written (R31). -/
  fbExists : s.fb.below s.cfg.fbBytes
  /-- The result is one of the six pairs of R57 (V85). -/
  resultLegal : s.result ∈ legalResults
  /-- Between operations the phase is an idle one (R11, R12). -/
  idlePhase : s.active = false → s.phase.isIdle
  /-- Between operations the sequencer position and the counters are dead (R12, R16). -/
  idleDead : s.active = false → Idle s
  /-- In Ready between operations the last sample of BUSY was low (R15, V78). -/
  readyLow : s.active = false → s.phase = .ready → s.lastBusy = some .low
  /-- Between operations, once initialised, CHIP SELECT and RESET are high (R78, R139, V79). -/
  idleLines : s.active = false → s.phase ≠ .uninitialized → s.cs = some .high ∧ s.rst = some .high
  /-- Between operations in Uninitialized nothing has been driven or sampled since the block reset (R14, R15, R21). -/
  undriven : s.active = false → s.phase = .uninitialized →
    s.cs = none ∧ s.dc = none ∧ s.rst = none ∧ s.lastBusy = none
  /-- A running operation has a position, and stands where its pseudocode can stand (R12). -/
  running : s.active = true → ∃ q, s.seq = some q ∧ Running q s
  /-- The done pulse is never up while an operation runs (R13). -/
  doneIdle : s.done = true → s.active = false

end Sys2Proof.Machine
end

