-- ==== Sys2Proof/Certificates/Slice0/Obligations.lean ====
section
/-! DEFINITION. Certificates/Slice0/Obligations.lean: the statements for the provers. Each is about every state, configuration
and environment its hypotheses admit; none rests on a free value of Config. -/

open Sys2Proof Sys2Proof.Machine

/-! ## Reset -/

/-- R21: the value of every field after block reset, and that the first operation that can succeed then is INITIALIZE. -/
def Obligations.ResetLeavesTheStatedValues : Prop :=
  State.reset.phase = .uninitialized ∧ State.reset.active = false ∧ State.reset.seq = none
  ∧ State.reset.tblIdx = none ∧ State.reset.byteIdx = none ∧ State.reset.pollCnt = none
  ∧ State.reset.result = ⟨.ok, .none⟩ ∧ State.reset.done = false
  ∧ State.reset.cs = none ∧ State.reset.dc = none ∧ State.reset.rst = none ∧ State.reset.lastBusy = none
  ∧ (∀ a, State.reset.fb.read a = none)
  ∧ State.reset.panel = ⟨.undefined, .undefined, .undefined⟩
  ∧ ∀ i : Instr, i ≠ .initialise → ∃ t, exec i State.reset = .next t ∧ t.result = ⟨.illegalState, .none⟩

/-- R130: block reset, at any time, also while a running operation holds requests off, gives every field of the block its reset
value and emits no event, so the RESET line is not pulsed; between operations the panel keeps the condition it was in. What is
outside the block is the model's own: the configuration, the trace and the host's other actions stay, held-off requests among them
(log entry 11), and the environment's coming answers too, but for the one of a burst that is cut (log entry 30). -/
def Obligations.BlockResetGivesResetValues : Prop :=
  ∀ (s : State) (held rest : List HostAction), s.host = held ++ .blockReset :: rest →
    (∀ a ∈ held, a.isRequest = true) → (s.active = false → held = []) →
    ∃ t, step s = .next t
      ∧ t.phase = .uninitialized ∧ t.active = false ∧ t.seq = none
      ∧ t.tblIdx = none ∧ t.byteIdx = none ∧ t.pollCnt = none
      ∧ t.result = ⟨.ok, .none⟩ ∧ t.done = false
      ∧ t.cs = none ∧ t.dc = none ∧ t.rst = none ∧ t.lastBusy = none
      ∧ (∀ a, t.fb.read a = none)
      ∧ t.trace = s.trace ∧ t.cfg = s.cfg ∧ t.host = held ++ rest
      ∧ (s.byteIdx = none → t.env = s.env) ∧ (∀ n, s.byteIdx = some n → t.env = s.env.afterBus)
      ∧ (s.active = false → t.panel = s.panel)

/-- R132: block reset while an operation runs, whatever requests it holds off: the trace ends where it is, no done pulse and no
result of the operation, the lines without value, and the panel's configuration undefined; once the operation has used the bus,
all of the ghost state. -/
def Obligations.ResetCutsAnOperationShort : Prop :=
  ∀ (s : State) (q : Seq) (held rest : List HostAction),
    s.active = true → s.seq = some q → s.host = held ++ .blockReset :: rest → (∀ a ∈ held, a.isRequest = true) →
    ∃ t, step s = .next t
      ∧ t.trace = s.trace ∧ t.done = false ∧ t.result = ⟨.ok, .none⟩ ∧ t.active = false
      ∧ t.cs = none ∧ t.dc = none ∧ t.rst = none
      ∧ t.panel.config = .undefined
      ∧ ((q.emitted s).any isBus = true → t.panel.ram = .undefined ∧ t.panel.visible = .undefined)

/-- R20, R21: a block reset between operations leaves the ghost state of the panel; a power cycle leaves none of it known. -/
def Obligations.ResetBetweenOperationsKeepsThePanel : Prop :=
  ∀ (s : State) (rest : List HostAction), s.active = false →
    (s.host = .blockReset :: rest → ∃ t, step s = .next t ∧ t.panel = s.panel)
    ∧ (s.host = .powerCycle :: rest →
        ∃ t, step s = .next t ∧ t.panel = ⟨.undefined, .undefined, .undefined⟩ ∧ t.phase = .uninitialized ∧ t.trace = s.trace)

/-- R21, log entry 12: a power cycle, the model's own action, at any time, also while a running operation holds requests off: every
field of the block has its reset value, no event is emitted, and nothing of the panel is known. What is outside the block is as
after a block reset (log entries 11 and 30). -/
def Obligations.PowerCycleGivesResetValues : Prop :=
  ∀ (s : State) (held rest : List HostAction), s.host = held ++ .powerCycle :: rest →
    (∀ a ∈ held, a.isRequest = true) → (s.active = false → held = []) →
    ∃ t, step s = .next t
      ∧ t.phase = .uninitialized ∧ t.active = false ∧ t.seq = none
      ∧ t.tblIdx = none ∧ t.byteIdx = none ∧ t.pollCnt = none
      ∧ t.result = ⟨.ok, .none⟩ ∧ t.done = false
      ∧ t.cs = none ∧ t.dc = none ∧ t.rst = none ∧ t.lastBusy = none
      ∧ (∀ a, t.fb.read a = none)
      ∧ t.panel = ⟨.undefined, .undefined, .undefined⟩
      ∧ t.trace = s.trace ∧ t.cfg = s.cfg ∧ t.host = held ++ rest
      ∧ (s.byteIdx = none → t.env = s.env) ∧ (∀ n, s.byteIdx = some n → t.env = s.env.afterBus)

/-! ## Encodings -/

/-- R51: the opcode assignment, in the words' own bits and in the table's numbering. -/
def Obligations.OpCodesSelectTheirOperations : Prop :=
  decode 0b00#2 = .initialise ∧ decode 0b01#2 = .updateFrame ∧ decode 0b10#2 = .displayFrame ∧ decode 0b11#2 = .sleep
  ∧ decodeTableWord 8 0 = some .initialise ∧ decodeTableWord 8 1 = some .updateFrame
  ∧ decodeTableWord 8 2 = some .displayFrame ∧ decodeTableWord 8 3 = some .sleep

/-- R51, R53: every operation has one word and every word selects one operation. -/
def Obligations.DecodeAndEncodeAgree : Prop :=
  (∀ i : Instr, decode (encode i) = i) ∧ (∀ w : OpWord, encode (decode w) = w)

/-- R57: the result words, and that a decoder of result words reads back the six pairs the block produces and refuses every
other word. -/
def Obligations.ResultWordsAreThoseOfTheSpec : Prop :=
  resultWord ⟨.ok, .none⟩ = 0x00#5 ∧ resultWord ⟨.illegalState, .none⟩ = 0x01#5
  ∧ resultWord ⟨.hardwareInitError, .busFault⟩ = 0x0A#5 ∧ resultWord ⟨.hardwareInitError, .busyTimeout⟩ = 0x12#5
  ∧ resultWord ⟨.transferError, .busFault⟩ = 0x0B#5 ∧ resultWord ⟨.busyTimeout, .busyTimeout⟩ = 0x14#5
  ∧ errCode .invalidGeometry = 5#3 ∧ errCode .sizeMismatch = 6#3
  ∧ (∀ r ∈ legalResults, resultOfWord (resultWord r) = some r)
  ∧ (∀ w r, resultOfWord w = some r → r ∈ legalResults ∧ resultWord r = w)

/-- R58: the status word: `phase` in bits 2:0 with the codes of R11, `active` in bit 3. -/
def Obligations.StatusWordShowsPhaseAndActive : Prop :=
  (∀ s : State, (statusWord s).extractLsb' 0 3 = phaseCode s.phase ∧ (statusWord s).getLsbD 3 = s.active
    ∧ statusOfWord (statusWord s) = some (s.active, s.phase))
  ∧ phaseCode .uninitialized = 0#3 ∧ phaseCode .ready = 1#3 ∧ phaseCode .transferringFrame = 2#3
  ∧ phaseCode .refreshing = 3#3 ∧ phaseCode .sleeping = 4#3 ∧ phaseCode .faulted = 5#3
  ∧ phaseOfCode 6#3 = none ∧ phaseOfCode 7#3 = none

/-! ## Acceptance -/

/-- The step runs the decoded operation (R50, R51): an idle block takes the word the host presents, and the step is exec of the
operation it selects, on the state with the request taken and the done pulse fallen. The second clause says the same of
State.withFetchWord, the model's own way to place a word before an idle block (log entry 4: the block itself fetches nothing). -/
def Obligations.StepRunsTheDecodedOperation : Prop :=
  (∀ (s : State) (w : OpWord) (rest : List HostAction), s.active = false → s.host = .call w :: rest →
    step s = exec (decode w) ((s.withDone false).withHost rest))
  ∧ (∀ (s : State) (nbits v : Nat), 2 ≤ nbits →
    step (s.withFetchWord nbits v)
      = exec (decode (BitVec.ofNat 2 v)) ((((s.withActive false).withSeq none).withDone false).withHost s.host))

/-- R50: the hand-shake. `op_ready` is 1 exactly when no operation runs; when the host presents a word and the block is ready,
the step takes it and acts on the operation `op_code` selects, in one of the two granularities; when the block is not ready, the
word is presented still. -/
def Obligations.HandshakeAcceptsTheWord : Prop :=
  (∀ s : State, (opReady s = true ↔ s.active = false) ∧ (opValid s = true ↔ ∃ w, opCode s = some w))
  ∧ (∀ (s : State) (w : OpWord), opReady s = true → opCode s = some w →
      step s = exec (decode w) ((s.withDone false).withHost s.host.tail)
      ∨ step s = .next (startOp (decode w) ((s.withDone false).withHost s.host.tail)))
  ∧ (∀ (s t : State) (w : OpWord), opReady s = false → opCode s = some w → step s = .next t → opCode t = some w)

/-- R50, R38: while an operation runs, an operation word, a port write and a load are held off: the step advances the operation,
keeps the request first in the host's list, and leaves the framebuffer alone. (A block reset behind a held-off
request: BlockResetGivesResetValues.) -/
def Obligations.RequestsAreHeldOffWhileActive : Prop :=
  ∀ (s : State) (q : Seq) (a : HostAction) (rest : List HostAction),
    s.active = true → s.seq = some q → s.host = a :: rest → a.isRequest = true → QuietHost s →
    ∃ t, step s = .next t
      ∧ t = microStep q ((s.withDone false).withHost (a :: (takeFree rest).2))
      ∧ t.host = a :: (takeFree rest).2
      ∧ (∀ addr, fbByte t addr = fbByte s addr)

/-- R131: an idle block with no request does nothing (its done pulse falls), and in Uninitialized the three operations other
than INITIALIZE are refused, leaving it Uninitialized. -/
def Obligations.IdleBlockWaitsForARequest : Prop :=
  (∀ s : State, s.active = false → s.host = [] → step s = .next (s.withDone false))
  ∧ (∀ (i : Instr) (s : State), s.phase = .uninitialized → i ≠ .initialise →
    ∃ t, exec i s = .next t ∧ t.result = ⟨.illegalState, .none⟩ ∧ t.phase = .uninitialized)

/-- R79: outside Ready every operation but INITIALIZE is refused: nothing changes but `result` and the done pulse, so in
particular no event is emitted. -/
def Obligations.RefusedOutsideReady : Prop :=
  ∀ (i : Instr) (s : State), Idle s → i ≠ .initialise → s.phase ≠ .ready →
    exec i s = .next ((s.withResult ⟨.illegalState, .none⟩).withDone true)

/-- R79, R12: small-step acceptance: a refused word ends the operation at once; an accepted one leaves the block active at the
body's first position (the deassertion of CS for INITIALIZE, the command's window for the others), with no event emitted, and with the
phase the operation shows from acceptance on. -/
def Obligations.AcceptanceStartsTheOperation : Prop :=
  ∀ (s : State) (w : OpWord) (rest : List HostAction), Idle s → s.host = .start w :: rest →
    ∃ t, step s = .next t ∧ t.trace = s.trace ∧ t.host = rest
      ∧ (guardPasses (decode w) s.phase = false →
          t.active = false ∧ t.done = true ∧ t.phase = s.phase ∧ t.result = ⟨.illegalState, .none⟩)
      ∧ (guardPasses (decode w) s.phase = true →
          t.active = true ∧ t.done = false ∧ t.result = s.result
          ∧ ∃ q, t.seq = some q ∧ q.op = decode w ∧ q.emitted t = [] ∧ t.phase = phaseAt q.op q.pos
            ∧ (decode w = .initialise → q.pos = .csIdle) ∧ (decode w ≠ .initialise → q.pos = .window .cmd .dc))

/-! ## What the operations do -/

/-- R80: INITIALIZE completes, from every phase, when every burst is answered `ok` and BUSY clears within the bound. -/
def Obligations.InitializeCompletes : Prop :=
  ∀ (s : State) (w : Nat), w ≤ s.cfg.nPollMax →
    BusOkFor (tableWindows s.cfg.initTable).length s.env → BusyClearsAfter w s.env →
    ∃ t, exec .initialise s = .next t
      ∧ t.trace = s.trace ++ bringUpTrace s.cfg ++ okTrace (tableWindows s.cfg.initTable) ++ waitTrace s.cfg.tPollUs w
      ∧ t.phase = .ready ∧ t.result = ⟨.ok, .none⟩ ∧ t.active = false ∧ t.done = true
      ∧ t.cs = some .high ∧ t.rst = some .high ∧ t.lastBusy = some .low
      ∧ t.panel = ⟨.configured, .undefined, s.panel.visible⟩

/-- R85: UPDATE_FRAME completes from Ready when its bursts are answered `ok` and BUSY clears within the bound: the write-RAM
command, then the whole of `fb` in one burst, then the wait. -/
def Obligations.UpdateFrameCompletes : Prop :=
  ∀ (s : State) (w : Nat), s.phase = .ready → 0 < s.cfg.fbBytes → w ≤ s.cfg.nPollMax →
    BusOkFor 2 s.env → BusyClearsAfter w s.env →
    ∃ t, exec .updateFrame s = .next t
      ∧ t.trace = s.trace ++ windowTrace (.cmd, [s.cfg.cmdWriteRam]) .ok ++ windowTrace (.data, frame s) .ok
          ++ waitTrace s.cfg.tPollUs w
      ∧ t.phase = .ready ∧ t.result = ⟨.ok, .none⟩ ∧ t.active = false ∧ t.done = true
      ∧ t.cs = some .high ∧ t.dc = some .high ∧ t.lastBusy = some .low
      ∧ t.panel = ⟨s.panel.config, .bytes (frame s), s.panel.visible⟩

/-- R90: DISPLAY_FRAME completes from Ready when its command is delivered and BUSY clears within the bound. -/
def Obligations.DisplayFrameCompletes : Prop :=
  ∀ (s : State) (w : Nat), s.phase = .ready → w ≤ s.cfg.nPollMax → BusOkFor 1 s.env → BusyClearsAfter w s.env →
    ∃ t, exec .displayFrame s = .next t
      ∧ t.trace = s.trace ++ windowTrace (.cmd, [s.cfg.cmdRefresh]) .ok ++ waitTrace s.cfg.tPollUs w
      ∧ t.phase = .ready ∧ t.result = ⟨.ok, .none⟩ ∧ t.active = false ∧ t.done = true
      ∧ t.cs = some .high ∧ t.dc = some .low ∧ t.lastBusy = some .low
      ∧ t.panel = ⟨s.panel.config, s.panel.ram, s.panel.ram⟩

/-- R95: SLEEP completes from Ready when its bursts are answered `ok`, whatever BUSY does: the sleep command, then the check
code, and no wait. The ghost field `panel_ram` stands (R20), but nothing is known of the RAM any more (U13, log entry 28). -/
def Obligations.SleepCompletes : Prop :=
  ∀ s : State, s.phase = .ready → BusOkFor (opWindows s .sleep).length s.env →
    ∃ t, exec .sleep s = .next t
      ∧ t.trace = s.trace ++ okTrace (opWindows s .sleep)
      ∧ t.phase = .sleeping ∧ t.result = ⟨.ok, .none⟩ ∧ t.active = false ∧ t.done = true
      ∧ t.cs = some .high ∧ (s.cfg.sleepParams ≠ [] → t.dc = some .high) ∧ t.lastBusy = s.lastBusy
      ∧ (∀ j, t.env.busyAt j = s.env.busyAt j)
      ∧ t.panel = ⟨.asleep, s.panel.ram, s.panel.visible⟩ ∧ ramKnown t = .undefined

/-- R82, R86, R91, R96, R78: the first burst that faults ends an operation: its window is closed, nothing more is emitted, BUSY
is not sampled, the result says which error, and the block is Faulted with the ghost state undefined where the rules say so,
`panel_ram` after UPDATE_FRAME by the reading of log entry 7. That nothing is known of the panel's RAM after any of them, a failed SLEEP
included, is the model's choice (`ramKnown`, log entry 28). The position a free answer names is taken
modulo the length of the burst (log entry 5), so that every legal position occurs. -/
def Obligations.BusFaultEndsTheOperation : Prop :=
  ∀ (i : Instr) (s : State) (j k : Nat) (w : WireKind × List Byte),
    guardPasses i s.phase = true → (opWindows s i)[j]? = some w → BusOkFor j s.env → s.env.busAt j = .fault k →
    ∃ t, exec i s = .next t
      ∧ t.trace = s.trace ++ opPrelude s.cfg i ++ okTrace ((opWindows s i).take j)
          ++ windowTrace w (.fault (k % w.2.length))
      ∧ t.result = busFaultResult i ∧ t.phase = .faulted ∧ t.active = false ∧ t.done = true
      ∧ t.cs = some .high ∧ t.dc = some (dcLevel w.1) ∧ t.lastBusy = s.lastBusy
      ∧ (∀ n, t.env.busyAt n = s.env.busyAt n)
      ∧ t.panel.config = .undefined ∧ ramKnown t = .undefined
      ∧ (i = .initialise → t.panel.ram = .undefined)
      ∧ (i = .updateFrame → t.panel.ram = .undefined)
      ∧ (i = .displayFrame → t.panel.visible = .undefined)

/-- R76, R82, R86, R91: a busy-wait that sees `N_POLL_MAX + 1` high samples ends an operation: the result says which error, and
the block is Faulted with the ghost state undefined where the rules say so, `panel_ram` after UPDATE_FRAME by the reading of log
entry 7. That nothing is known of the panel's RAM after any of them, also where R20 lets `panel_ram` stand, is the model's choice
(`ramKnown`, log entry 28). -/
def Obligations.BusyTimeoutEndsTheOperation : Prop :=
  ∀ (i : Instr) (s : State), i ≠ .sleep → guardPasses i s.phase = true →
    BusOkFor (opWindows s i).length s.env → BusyHighFor (s.cfg.nPollMax + 1) s.env →
    ∃ t, exec i s = .next t
      ∧ t.trace = s.trace ++ opPrelude s.cfg i ++ okTrace (opWindows s i) ++ timeoutTrace s.cfg.tPollUs s.cfg.nPollMax
      ∧ t.result = timeoutResult i ∧ t.phase = .faulted ∧ t.active = false ∧ t.done = true
      ∧ t.cs = some .high ∧ t.lastBusy = some .high
      ∧ t.panel.config = .undefined ∧ ramKnown t = .undefined
      ∧ (i = .initialise → t.panel.ram = .undefined)
      ∧ (i = .updateFrame → t.panel.ram = .undefined)
      ∧ (i = .displayFrame → t.panel.visible = .undefined)

/-- R91, R76: a refresh whose BUSY line never clears: `N_POLL_MAX + 1` samples and `N_POLL_MAX` delays after the command's four
events, and `N_POLL_MAX * T_POLL_US` microseconds asked of the timer. -/
def Obligations.RefreshTimeoutIsBounded : Prop :=
  ∀ s : State, s.phase = .ready → BusOkFor 1 s.env → BusyHighFor (s.cfg.nPollMax + 1) s.env →
    ∃ t es, exec .displayFrame s = .next t ∧ t.trace = s.trace ++ es
      ∧ t.result = ⟨.busyTimeout, .busyTimeout⟩
      ∧ es.length = 4 + 2 * s.cfg.nPollMax + 1
      ∧ es.countP isBusy = s.cfg.nPollMax + 1 ∧ es.countP isDelay = s.cfg.nPollMax
      ∧ requestedDelay es = s.cfg.busyTimeoutUs

/-! ## What the operations leave alone -/

/-- R42, R19, R12, R13, R16, R69: no operation writes the framebuffer, the configuration, the host's list of actions or its load error
(log entries 13 and 26); every address reads as before; what was emitted stays emitted; and in the end no operation is running, the
counters are dead and the done pulse is up. -/
def Obligations.OperationsLeaveTheFramebuffer : Prop :=
  ∀ (i : Instr) (s t : State), exec i s = .next t →
    (∀ a, fbByte t a = fbByte s a) ∧ t.fb = s.fb ∧ t.fbEpoch = s.fbEpoch ∧ frame t = frame s
    ∧ t.cfg = s.cfg ∧ t.host = s.host ∧ t.loadErr = s.loadErr
    ∧ s.trace <+: t.trace
    ∧ Idle t ∧ t.done = true

/-- The frame of INITIALIZE (R80, R83(b), R83(g)): `panel_visible` stands, and with an empty table so does DC. -/
def Obligations.InitializeFrame : Prop :=
  ∀ s t : State, exec .initialise s = .next t →
    t.panel.visible = s.panel.visible ∧ (s.cfg.initTable = [] → t.dc = s.dc)

/-- The frame of UPDATE_FRAME (R85, R87(e)): RESET and `panel_visible` stand; refused, so does everything but the result. -/
def Obligations.UpdateFrameFrame : Prop :=
  ∀ s t : State, exec .updateFrame s = .next t →
    t.rst = s.rst ∧ t.panel.visible = s.panel.visible
    ∧ (s.phase ≠ .ready → t.phase = s.phase ∧ t.cs = s.cs ∧ t.dc = s.dc ∧ t.lastBusy = s.lastBusy ∧ t.panel = s.panel
        ∧ t.trace = s.trace ∧ t.env = s.env)

/-- The frame of DISPLAY_FRAME (R90): RESET and `panel_ram` stand; refused, so does everything but the result. -/
def Obligations.DisplayFrameFrame : Prop :=
  ∀ s t : State, exec .displayFrame s = .next t →
    t.rst = s.rst ∧ t.panel.ram = s.panel.ram
    ∧ (s.phase ≠ .ready → t.phase = s.phase ∧ t.cs = s.cs ∧ t.dc = s.dc ∧ t.lastBusy = s.lastBusy ∧ t.panel = s.panel
        ∧ t.trace = s.trace ∧ t.env = s.env)

/-- The frame of SLEEP (R98, R97(d), R20): RESET, the last BUSY sample and the ghost fields `panel_ram` and `panel_visible` stand and
BUSY is not asked; refused, so does everything but the result; run, it leaves nothing known of the panel's RAM (U13, log
entry 28). -/
def Obligations.SleepFrame : Prop :=
  ∀ s t : State, exec .sleep s = .next t →
    t.rst = s.rst ∧ t.lastBusy = s.lastBusy ∧ t.panel.ram = s.panel.ram ∧ t.panel.visible = s.panel.visible
    ∧ (∀ n, t.env.busyAt n = s.env.busyAt n)
    ∧ (s.phase = .ready → ramKnown t = .undefined)
    ∧ (s.phase ≠ .ready → t.phase = s.phase ∧ t.cs = s.cs ∧ t.dc = s.dc ∧ t.panel = s.panel ∧ t.trace = s.trace
        ∧ t.env = s.env)

/-! ## Rules over all operations -/

/-- R11: the transition relation: success leads to the operation's target phase, IllegalState leaves the phase, and every other
result leaves the block Faulted. -/
def Obligations.PhaseTransitionTable : Prop :=
  ∀ (i : Instr) (s t : State), exec i s = .next t →
    (guardPasses i s.phase = false → t.result = ⟨.illegalState, .none⟩ ∧ t.phase = s.phase)
    ∧ (guardPasses i s.phase = true →
        (t.result = ⟨.ok, .none⟩ ∧ t.phase = targetPhase i)
        ∨ (t.result = busFaultResult i ∧ t.phase = .faulted)
        ∨ (t.result = timeoutResult i ∧ i ≠ .sleep ∧ t.phase = .faulted))

/-- R146: under a sound bus (P1: the operation's bursts are answered `ok`) and a responsive panel (P2: some sample among the
first `N_POLL_MAX + 1` of its busy-wait reads low) no operation fails except by IllegalState. -/
def Obligations.NoFailureUnderSoundBusAndResponsivePanel : Prop :=
  ∀ (i : Instr) (s t : State), BusOkFor (opWindows s i).length s.env →
    (i ≠ .sleep → ∃ w ≤ s.cfg.nPollMax, s.env.busyAt w = .low) → exec i s = .next t →
    t.result = ⟨.ok, .none⟩ ∨ (t.result = ⟨.illegalState, .none⟩ ∧ i ≠ .initialise ∧ s.phase ≠ .ready)

/-- R142, R144, R146: under P1 and P5, a configuration that matches the panel's datasheet, an accepted operation completes: if the
panel keeps the datasheet's time, the poll bound is never what ends a busy-wait. -/
def Obligations.MatchingConfigurationOutlastsThePanel : Prop :=
  ∀ (i : Instr) (s : State) (d : Datasheet), guardPasses i s.phase = true → BusOkFor (opWindows s i).length s.env →
    MatchingConfiguration d s.cfg → KeepsBusyTime d s.cfg s.env →
    ∃ t, exec i s = .next t ∧ t.result = ⟨.ok, .none⟩ ∧ t.phase = targetPhase i

/-- R145: the number of events of an operation is bounded, under every sequence of answers. -/
def Obligations.EventsAreBounded : Prop :=
  ∀ (i : Instr) (s t : State), exec i s = .next t → t.trace.length ≤ s.trace.length + eventBound s.cfg i

/-- R139, R73, R74: the chip-select discipline: in the events of every operation each burst lies alone between a `Pin(CS, low)`
and a `Pin(CS, high)`, is not empty, is one byte when DC is low, and is answered legally; CS is written nowhere else but for the
deassertion that opens INITIALIZE. -/
def Obligations.BurstsLieInWindows : Prop :=
  ∀ (i : Instr) (s t : State), exec i s = .next t → ∃ es, t.trace = s.trace ++ csOpening i ++ es ∧ windowed es = true

/-- R70, R14, R15: after an operation each latch holds the level of the last write of its line, and `last_busy` the level of the
last sample: nothing else writes them. -/
def Obligations.LatchesFollowTheTrace : Prop :=
  ∀ (i : Instr) (s t : State), exec i s = .next t →
    ∃ es, t.trace = s.trace ++ es ∧ t.cs = lastPin .cs s.cs es ∧ t.dc = lastPin .dc s.dc es ∧ t.rst = lastPin .rst s.rst es
      ∧ t.lastBusy = lastSample s.lastBusy es

/-- R135, R77, R80: RESET is pulsed by INITIALIZE alone, in every INITIALIZE, first of all after CS: low, wait, high, wait. -/
def Obligations.ResetPulseOnlyInInitialize : Prop :=
  ∀ (i : Instr) (s t : State), exec i s = .next t →
    ∃ es, t.trace = s.trace ++ es
      ∧ (i ≠ .initialise → es.any isRstPin = false)
      ∧ (i = .initialise → ∃ rest, es = bringUpTrace s.cfg ++ rest ∧ rest.any isRstPin = false)

/-- R95: SLEEP samples BUSY never and waits never. -/
def Obligations.SleepNeitherSamplesNorWaits : Prop :=
  ∀ s t : State, exec .sleep s = .next t →
    ∃ es, t.trace = s.trace ++ es ∧ es.any isBusy = false ∧ es.any isDelay = false

/-- R93: when UPDATE_FRAME and DISPLAY_FRAME both complete with Ok, one after the other, the wire carries the write-RAM command,
every byte of the framebuffer in address order, the refresh command, and nothing else. -/
def Obligations.FrameThenRefreshOnTheWire : Prop :=
  ∀ s t u : State, exec .updateFrame s = .next t → t.result = ⟨.ok, .none⟩ →
    exec .displayFrame t = .next u → u.result = ⟨.ok, .none⟩ →
    ∃ es, u.trace = s.trace ++ es
      ∧ wireView es = (WireKind.cmd, s.cfg.cmdWriteRam) :: (frame s).map (fun b => (WireKind.data, b))
          ++ [(WireKind.cmd, s.cfg.cmdRefresh)]
      ∧ u.panel.visible = .bytes (frame s)

/-- R134, R15: under P3, well-behaved BUSY, the line itself is low after every event from the end of an operation that completed in
Ready up to the first burst of the next operation, also when the host acts in between (`t'` is any state with no event emitted
since): the command of that operation is not sent while BUSY is asserted. -/
def Obligations.NoCommandWhileBusyUnderWellBehavedBusy : Prop :=
  ∀ (i j : Instr) (s t t' u : State) (line : List Event → Level) (p₁ p₂ q : List Event) (bs : List Byte)
      (r : BusOutcome),
    exec i s = .next t → t.result = ⟨.ok, .none⟩ → t.phase = .ready → t'.trace = t.trace → exec j t' = .next u →
    WellBehavedBusy line u.trace →
    u.trace = t.trace ++ (p₁ ++ p₂) ++ Event.bus bs r :: q → (p₁ ++ p₂).any isBus = false →
    line (t.trace ++ p₁) = .low

/-- R134(c), R146: under P3 a completed refresh has been seen through: the panel raised BUSY after the refresh command, and had
lowered it before the sample that ended the operation. -/
def Obligations.RefreshIsSeenThroughUnderWellBehavedBusy : Prop :=
  ∀ (s t : State) (line : List Event → Level),
    s.phase = .ready → exec .displayFrame s = .next t → t.result = ⟨.ok, .none⟩ → WellBehavedBusy line t.trace →
    ∃ p q, t.trace = s.trace ++ [.pin .dc .low, .pin .cs .low, .bus [s.cfg.cmdRefresh] .ok] ++ p ++ q ++ [.busy .low]
      ∧ line (s.trace ++ [.pin .dc .low, .pin .cs .low, .bus [s.cfg.cmdRefresh] .ok] ++ p) = .high
      ∧ line (s.trace ++ [.pin .dc .low, .pin .cs .low, .bus [s.cfg.cmdRefresh] .ok] ++ p ++ q) = .low

/-- R13: nothing reads the result register, so no operation depends on an earlier failure other than through the phase. -/
def Obligations.ResultIsNeverRead : Prop :=
  ∀ (i : Instr) (s : State) (r : Result), exec i (s.withResult r) = exec i s

/-- R20: no operation depends on the ghost state: with another panel the same happens, but for the panel. -/
def Obligations.GhostStateIsNeverRead : Prop :=
  ∀ (i : Instr) (s t : State) (p : Panel), exec i s = .next t → ∃ p', exec i (s.withPanel p) = .next (t.withPanel p')

/-- R92(c), R83(g): only UPDATE_FRAME reads the framebuffer: with another content the others do the same. -/
def Obligations.OnlyUpdateFrameReadsTheFramebuffer : Prop :=
  ∀ (i : Instr) (s t : State) (m : Memory), i ≠ .updateFrame → exec i s = .next t →
    exec i (s.withFb m) = .next (t.withFb m)

/-- R83(a), R112: INITIALIZE remembers nothing of the earlier session: from any phase, result, done pulse, CS and RESET level,
sequencer position, counters, panel configuration and panel RAM it does the same. What it remembers: `fb` and `panel_visible`, which it
leaves as they are (R83(a), R83(g)). DC matters only with an empty init table, which
does not write it, and the last BUSY sample only where a burst faults before BUSY is sampled: both then stand. -/
def Obligations.InitializeForgetsTheSession : Prop :=
  (∀ (s : State) (p : Phase) (r : Result) (a d : Bool) (c v : Option Level) (q : Option Seq) (n b k : Option Nat)
      (g : PanelConfig) (m : Image),
    exec .initialise { s with phase := p, active := a, result := r, done := d, cs := c, rst := v, seq := q, tblIdx := n,
                              byteIdx := b, pollCnt := k, panel := ⟨g, m, s.panel.visible⟩ }
      = exec .initialise s)
  ∧ (∀ (s : State) (v : Option Level), s.cfg.initTable ≠ [] → exec .initialise (s.withDc v) = exec .initialise s)
  ∧ (∀ (s t : State) (v : Option Level), exec .initialise s = .next t → t.result ≠ ⟨.hardwareInitError, .busFault⟩ →
      exec .initialise (s.withLastBusy v) = .next t)

/-- R111, R97: a block that is Faulted or Sleeping between operations leaves that phase only by INITIALIZE, block reset or a
power cycle. -/
def Obligations.FaultedAndSleepingAreLeftByInitializeOrReset : Prop :=
  ∀ s t : State, s.active = false → (s.phase = .faulted ∨ s.phase = .sleeping) → step s = .next t →
    (∀ rest, s.host ≠ .call (encode .initialise) :: rest ∧ s.host ≠ .start (encode .initialise) :: rest
      ∧ s.host ≠ .blockReset :: rest ∧ s.host ≠ .powerCycle :: rest) →
    t.phase = s.phase ∧ t.active = false ∧ t.trace = s.trace

/-- R81: while INITIALIZE runs, the status output shows Uninitialized, from acceptance to the end. -/
def Obligations.UninitializedWhileInitializeRuns : Prop :=
  (∀ s : State, (startOp .initialise s).phase = .uninitialized)
  ∧ (∀ (s : State) (q : Seq), s.seq = some q → q.op = .initialise → s.phase = .uninitialized → s.active = true →
      (microStep q s).active = true →
      (microStep q s).phase = .uninitialized ∧ ∃ q', (microStep q s).seq = some q' ∧ q'.op = .initialise ∧ q'.start = q.start)

/-! ## The framebuffer and its host side -/

/-- R65, R66, R67: the framebuffer functions: their values, their errors exactly when the rules say, the length law and the
round trip. -/
def Obligations.FramebufferFunctionsCheckTheirSizes : Prop :=
  (∀ w h, w % 8 ≠ 0 → fbCreate w h = .error .invalidGeometry)
  ∧ (∀ w h, w % 8 = 0 → fbCreate w h = .ok ⟨w, h, List.replicate ((w / 8) * h) 0x00#8⟩
      ∧ (fbAsBytes ⟨w, h, List.replicate ((w / 8) * h) 0x00#8⟩).length = (w / 8) * h)
  ∧ (∀ w h bs, bs.length ≠ ((w + 7) / 8) * h → fbFromBytes w h bs = .error .sizeMismatch)
  ∧ (∀ w h bs, bs.length = ((w + 7) / 8) * h → ∃ f, fbFromBytes w h bs = .ok f ∧ f.w = w ∧ f.h = h ∧ fbAsBytes f = bs)
  ∧ (∀ f, fbAsBytes f = f.bytes)

/-- R68: FB_LOAD waits until no operation runs; then a load of another length is refused and no byte changes, and a load of
`FB_BYTES` bytes, in any phase, makes them the frame, byte by byte; it changes nothing else of the block. -/
def Obligations.LoadChecksTheLength : Prop :=
  ∀ (s : State) (bs : List Byte) (rest : List HostAction), s.host = .fbLoad bs :: rest →
    (∀ q, s.active = true → s.seq = some q → QuietHost s →
      ∃ t, step s = .next t ∧ t.host.head? = some (.fbLoad bs) ∧ ∀ a, fbByte t a = fbByte s a)
    ∧ (s.active = false →
      ∃ t, step s = .next t ∧ t.host = rest
        ∧ (bs.length ≠ s.cfg.fbBytes → t.loadErr = .sizeMismatch ∧ ∀ a, fbByte t a = fbByte s a)
        ∧ (bs.length = s.cfg.fbBytes → t.loadErr = .ok ∧ frame t = bs ∧ LoadedFrame t
            ∧ ∀ a, s.cfg.fbBytes ≤ a → fbByte t a = fbByte s a)
        ∧ t.phase = s.phase ∧ t.result = s.result ∧ t.trace = s.trace ∧ t.active = false
        ∧ t.cs = s.cs ∧ t.dc = s.dc ∧ t.rst = s.rst ∧ t.lastBusy = s.lastBusy ∧ t.panel = s.panel)

/-- R38: a port write to an idle block stores `v[i]` at `addr + i` and leaves every other byte; one that would reach an address
at or beyond `FB_BYTES` has no move. -/
def Obligations.PortWriteStoresItsBytes : Prop :=
  ∀ (s : State) (addr : Nat) (v : List Byte) (rest : List HostAction), s.active = false →
    s.host = .memWrite addr v :: rest →
    (addr + v.length ≤ s.cfg.fbBytes →
      ∃ t, step s = .next t
        ∧ (∀ i (h : i < v.length), fbByte t (addr + i) = v[i])
        ∧ (∀ a, a < addr ∨ addr + v.length ≤ a → fbByte t a = fbByte s a)
        ∧ t.phase = s.phase ∧ t.result = s.result ∧ t.trace = s.trace ∧ t.active = false ∧ t.panel = s.panel)
    ∧ (s.cfg.fbBytes < addr + v.length → step s = .fault .fbAddress)

/-- R32: the pixel map: every pixel lies in an existing byte, two pixels never share a bit, and every bit of `fb` is a pixel. -/
def Obligations.PixelMapIsABijection : Prop :=
  ∀ c : Cfg, c.wf = true →
    (∀ x y, x < c.width → y < c.height → pixelAddr c x y < c.fbBytes ∧ pixelBit x < 8)
    ∧ (∀ x y x' y', x < c.width → x' < c.width → pixelAddr c x y = pixelAddr c x' y' → pixelBit x = pixelBit x' →
        x = x' ∧ y = y')
    ∧ (∀ a b, a < c.fbBytes → b < 8 → ∃ x y, x < c.width ∧ y < c.height ∧ pixelAddr c x y = a ∧ pixelBit x = b)

/-- R32, R67, R68: pixel `(x, y)` of a loaded framebuffer is bit `7 - x mod 8` of byte `y * (WIDTH / 8) + x / 8` of the bytes
loaded: rows one after another, the leftmost pixel of a byte in its highest bit. -/
def Obligations.LoadedPixelsReadBack : Prop :=
  ∀ (s : State) (bs : List Byte) (x y : Nat), s.cfg.wf = true → bs.length = s.cfg.fbBytes →
    x < s.cfg.width → y < s.cfg.height →
    ∃ b, bs[y * (s.cfg.width / 8) + x / 8]? = some b ∧ pixel (fbLoad bs s) x y = b.getLsbD (7 - x % 8)
      ∧ pixelIn s.cfg bs x y = some (pixel (fbLoad bs s) x y)

/-! ## The machine -/

/-- The reset state satisfies the invariant of the machine. -/
def Obligations.ResetSatisfiesTheInvariant : Prop := Inv State.reset

/-- Every step keeps the invariant of the machine, the small steps of a running operation and every host action included. -/
def Obligations.StepKeepsTheInvariant : Prop := ∀ s t : State, Inv s → step s = .next t → Inv t

/-- R145: the machine is never stuck: in every state of the invariant a step answers a next state, unless the host writes beyond
the framebuffer. -/
def Obligations.StepAlwaysAnswers : Prop :=
  ∀ s : State, Inv s →
    (∀ addr v rest, s.host = .memWrite addr v :: rest → s.active = false → addr + v.length ≤ s.cfg.fbBytes) →
    ∃ t, step s = .next t

/-- R6: the two granularities agree: the small steps of an operation, from its acceptance to its end, reach exactly the state its
big step reaches, and the operation is running at every step between. -/
def Obligations.SmallStepsReachTheBigStep : Prop :=
  ∀ (s : State) (w : OpWord), Idle s →
    ∃ n, Host.Core.run Sys2Proof.core (n + 1) (s.withHost [.start w]) = step (s.withHost [.call w])
      ∧ ∀ m < n, ∃ t : State, Host.Core.run Sys2Proof.core (m + 1) (s.withHost [.start w]) = .next t ∧ t.active = true

/-- R12, R13, R141: unless the host asserts reset or cuts the power now, a running operation is not cut: a step advances it by at
most one event, and either it is still the same operation, or it has ended with its done pulse and a result of its own. -/
def Obligations.OnlyResetCutsAnOperation : Prop :=
  ∀ (s t : State) (q : Seq), s.active = true → s.seq = some q → QuietHost s → step s = .next t →
    (t.trace = s.trace ∨ ∃ e, t.trace = s.trace ++ [e])
    ∧ ((t.active = true ∧ t.done = false ∧ t.result = s.result
          ∧ ∃ q', t.seq = some q' ∧ q'.op = q.op ∧ q'.start = q.start)
       ∨ (Idle t ∧ t.done = true ∧ t.result ∈ legalResults ∧ t.result ≠ ⟨.illegalState, .none⟩))

/-- R120, R141, R146: under P6, a quiet host, for `n` steps, an operation is never cut: after `n` steps it still runs, or at some
step before it ended with its done pulse and a result of its own. -/
def Obligations.QuietHostNeverCutsAnOperation : Prop :=
  ∀ (n : Nat) (s : State) (q : Seq), s.active = true → s.seq = some q → QuietRun n s →
    (∃ (t : State) (q' : Seq), Host.Core.run Sys2Proof.core n s = .next t ∧ t.active = true ∧ t.seq = some q'
      ∧ q'.op = q.op ∧ q'.start = q.start ∧ t.result = s.result ∧ s.trace <+: t.trace)
    ∨ ∃ m ≤ n, ∃ t : State, Host.Core.run Sys2Proof.core m s = .next t ∧ Idle t ∧ t.done = true
        ∧ t.result ∈ legalResults ∧ t.result ≠ ⟨.illegalState, .none⟩ ∧ s.trace <+: t.trace

/-- R60, R111, R146: under a sound bus and a panel that stays responsive for as long as it takes (assumption log 22), the
sequence RECOVER, from every idle phase, and the sequence SHOW, from Ready, run to their end and leave the panel showing the
frame that was loaded. -/
def Obligations.RecoverShowsTheLoadedFrame : Prop :=
  ∀ (s : State) (bs : List Byte), s.active = false → bs.length = s.cfg.fbBytes →
    BusOkFor ((tableWindows s.cfg.initTable).length + 3) s.env → ResponsiveFor (2 * s.cfg.nPollMax + 3) s.cfg s.env →
    (∃ t : State, Host.Core.run Sys2Proof.core 4 (s.withHost (recoverActions bs)) = .next t
      ∧ runEnded t = true ∧ t.phase = .ready ∧ t.result = ⟨.ok, .none⟩
      ∧ t.panel = ⟨.configured, .bytes bs, .bytes bs⟩)
    ∧ (s.phase = .ready →
      ∃ t : State, Host.Core.run Sys2Proof.core 3 (s.withHost (showActions bs)) = .next t
        ∧ runEnded t = true ∧ t.phase = .ready ∧ t.result = ⟨.ok, .none⟩
        ∧ t.panel.ram = .bytes bs ∧ t.panel.visible = .bytes bs)
end

