-- ==== Sys2Proof/Laws/Env.lean ====
section
/-! SUPPORT. Laws/Env.lean: the environment's answers by number (R7): what the next answer is, and what the answers are once one
has been consumed. -/

namespace Sys2Proof.Machine

@[simp] theorem Env.nextBus_eq (e : Env) (len : Nat) : e.nextBus len = legalOutcome len (e.busAt 0) := by
  cases h : e.busScript <;> simp [Env.nextBus, Env.busAt, h]

@[simp] theorem Env.nextBusy_eq (e : Env) : e.nextBusy = e.busyAt 0 := by
  cases h : e.busyScript <;> simp [Env.nextBusy, Env.busyAt, h]

@[simp] theorem Env.afterBus_busAt (e : Env) (n : Nat) : e.afterBus.busAt n = e.busAt (n + 1) := by
  cases h : e.busScript <;> simp [Env.afterBus, Env.busAt, h, Nat.add_comm, Nat.add_left_comm]

@[simp] theorem Env.afterBus_busyAt (e : Env) (n : Nat) : e.afterBus.busyAt n = e.busyAt n := by
  cases h : e.busScript <;> simp [Env.afterBus, Env.busyAt, h]

@[simp] theorem Env.afterBusy_busyAt (e : Env) (n : Nat) : e.afterBusy.busyAt n = e.busyAt (n + 1) := by
  cases h : e.busyScript <;> simp [Env.afterBusy, Env.busyAt, h, Nat.add_comm, Nat.add_left_comm]

@[simp] theorem Env.afterBusy_busAt (e : Env) (n : Nat) : e.afterBusy.busAt n = e.busAt n := by
  cases h : e.busyScript <;> simp [Env.afterBusy, Env.busAt, h]

@[simp] theorem legalOutcome_ok (len : Nat) : legalOutcome len .ok = .ok := rfl

@[simp] theorem legalOutcome_fault (len k : Nat) : legalOutcome len (.fault k) = .fault (k % len) := rfl

/-- A burst's answer is `ok` exactly when the environment's is. -/
@[simp] theorem legalOutcome_eq_ok (len : Nat) (r : BusOutcome) : legalOutcome len r = .ok ↔ r = .ok := by
  cases r <;> simp

/-- The position of a fault is inside the burst (R72). -/
theorem legalOutcome_lt {len k : Nat} {r : BusOutcome} (hlen : 0 < len) (h : legalOutcome len r = .fault k) : k < len := by
  cases r with
  | ok => cases h
  | fault j => cases h; exact Nat.mod_lt _ hlen

/-- The environment once it has answered `n` bursts. -/
def Env.afterBusses (e : Env) : Nat → Env
  | 0 => e
  | n + 1 => e.afterBus.afterBusses n

@[simp] theorem Env.afterBusses_busAt (e : Env) (n j : Nat) : (e.afterBusses n).busAt j = e.busAt (n + j) := by
  induction n generalizing e with
  | zero => simp [Env.afterBusses]
  | succ n ih => simp [Env.afterBusses, ih, Nat.add_right_comm]

@[simp] theorem Env.afterBusses_busyAt (e : Env) (n j : Nat) : (e.afterBusses n).busyAt j = e.busyAt j := by
  induction n generalizing e with
  | zero => simp [Env.afterBusses]
  | succ n ih => simp [Env.afterBusses, ih]

end Sys2Proof.Machine
end

