-- ==== Sys2Proof/Laws/State.lean ====
section
/-! SUPPORT. Laws/State.lean: every field of the state after every named update, so that no proof unfolds a record update. -/

namespace Sys2Proof.Machine

section withPhase
variable (s : State) (v : Phase)
@[simp] theorem State.withPhase_phase : (s.withPhase v).phase = v := rfl
@[simp] theorem State.withPhase_active : (s.withPhase v).active = s.active := rfl
@[simp] theorem State.withPhase_seq : (s.withPhase v).seq = s.seq := rfl
@[simp] theorem State.withPhase_result : (s.withPhase v).result = s.result := rfl
@[simp] theorem State.withPhase_done : (s.withPhase v).done = s.done := rfl
@[simp] theorem State.withPhase_cs : (s.withPhase v).cs = s.cs := rfl
@[simp] theorem State.withPhase_dc : (s.withPhase v).dc = s.dc := rfl
@[simp] theorem State.withPhase_rst : (s.withPhase v).rst = s.rst := rfl
@[simp] theorem State.withPhase_lastBusy : (s.withPhase v).lastBusy = s.lastBusy := rfl
@[simp] theorem State.withPhase_tblIdx : (s.withPhase v).tblIdx = s.tblIdx := rfl
@[simp] theorem State.withPhase_byteIdx : (s.withPhase v).byteIdx = s.byteIdx := rfl
@[simp] theorem State.withPhase_pollCnt : (s.withPhase v).pollCnt = s.pollCnt := rfl
@[simp] theorem State.withPhase_fb : (s.withPhase v).fb = s.fb := rfl
@[simp] theorem State.withPhase_panel : (s.withPhase v).panel = s.panel := rfl
@[simp] theorem State.withPhase_cfg : (s.withPhase v).cfg = s.cfg := rfl
@[simp] theorem State.withPhase_trace : (s.withPhase v).trace = s.trace := rfl
@[simp] theorem State.withPhase_env : (s.withPhase v).env = s.env := rfl
@[simp] theorem State.withPhase_fbEpoch : (s.withPhase v).fbEpoch = s.fbEpoch := rfl
@[simp] theorem State.withPhase_host : (s.withPhase v).host = s.host := rfl
@[simp] theorem State.withPhase_loadErr : (s.withPhase v).loadErr = s.loadErr := rfl
end withPhase

section withActive
variable (s : State) (v : Bool)
@[simp] theorem State.withActive_phase : (s.withActive v).phase = s.phase := rfl
@[simp] theorem State.withActive_active : (s.withActive v).active = v := rfl
@[simp] theorem State.withActive_seq : (s.withActive v).seq = s.seq := rfl
@[simp] theorem State.withActive_result : (s.withActive v).result = s.result := rfl
@[simp] theorem State.withActive_done : (s.withActive v).done = s.done := rfl
@[simp] theorem State.withActive_cs : (s.withActive v).cs = s.cs := rfl
@[simp] theorem State.withActive_dc : (s.withActive v).dc = s.dc := rfl
@[simp] theorem State.withActive_rst : (s.withActive v).rst = s.rst := rfl
@[simp] theorem State.withActive_lastBusy : (s.withActive v).lastBusy = s.lastBusy := rfl
@[simp] theorem State.withActive_tblIdx : (s.withActive v).tblIdx = s.tblIdx := rfl
@[simp] theorem State.withActive_byteIdx : (s.withActive v).byteIdx = s.byteIdx := rfl
@[simp] theorem State.withActive_pollCnt : (s.withActive v).pollCnt = s.pollCnt := rfl
@[simp] theorem State.withActive_fb : (s.withActive v).fb = s.fb := rfl
@[simp] theorem State.withActive_panel : (s.withActive v).panel = s.panel := rfl
@[simp] theorem State.withActive_cfg : (s.withActive v).cfg = s.cfg := rfl
@[simp] theorem State.withActive_trace : (s.withActive v).trace = s.trace := rfl
@[simp] theorem State.withActive_env : (s.withActive v).env = s.env := rfl
@[simp] theorem State.withActive_fbEpoch : (s.withActive v).fbEpoch = s.fbEpoch := rfl
@[simp] theorem State.withActive_host : (s.withActive v).host = s.host := rfl
@[simp] theorem State.withActive_loadErr : (s.withActive v).loadErr = s.loadErr := rfl
end withActive

section withSeq
variable (s : State) (v : Option Seq)
@[simp] theorem State.withSeq_phase : (s.withSeq v).phase = s.phase := rfl
@[simp] theorem State.withSeq_active : (s.withSeq v).active = s.active := rfl
@[simp] theorem State.withSeq_seq : (s.withSeq v).seq = v := rfl
@[simp] theorem State.withSeq_result : (s.withSeq v).result = s.result := rfl
@[simp] theorem State.withSeq_done : (s.withSeq v).done = s.done := rfl
@[simp] theorem State.withSeq_cs : (s.withSeq v).cs = s.cs := rfl
@[simp] theorem State.withSeq_dc : (s.withSeq v).dc = s.dc := rfl
@[simp] theorem State.withSeq_rst : (s.withSeq v).rst = s.rst := rfl
@[simp] theorem State.withSeq_lastBusy : (s.withSeq v).lastBusy = s.lastBusy := rfl
@[simp] theorem State.withSeq_tblIdx : (s.withSeq v).tblIdx = s.tblIdx := rfl
@[simp] theorem State.withSeq_byteIdx : (s.withSeq v).byteIdx = s.byteIdx := rfl
@[simp] theorem State.withSeq_pollCnt : (s.withSeq v).pollCnt = s.pollCnt := rfl
@[simp] theorem State.withSeq_fb : (s.withSeq v).fb = s.fb := rfl
@[simp] theorem State.withSeq_panel : (s.withSeq v).panel = s.panel := rfl
@[simp] theorem State.withSeq_cfg : (s.withSeq v).cfg = s.cfg := rfl
@[simp] theorem State.withSeq_trace : (s.withSeq v).trace = s.trace := rfl
@[simp] theorem State.withSeq_env : (s.withSeq v).env = s.env := rfl
@[simp] theorem State.withSeq_fbEpoch : (s.withSeq v).fbEpoch = s.fbEpoch := rfl
@[simp] theorem State.withSeq_host : (s.withSeq v).host = s.host := rfl
@[simp] theorem State.withSeq_loadErr : (s.withSeq v).loadErr = s.loadErr := rfl
end withSeq

section withResult
variable (s : State) (v : Result)
@[simp] theorem State.withResult_phase : (s.withResult v).phase = s.phase := rfl
@[simp] theorem State.withResult_active : (s.withResult v).active = s.active := rfl
@[simp] theorem State.withResult_seq : (s.withResult v).seq = s.seq := rfl
@[simp] theorem State.withResult_result : (s.withResult v).result = v := rfl
@[simp] theorem State.withResult_done : (s.withResult v).done = s.done := rfl
@[simp] theorem State.withResult_cs : (s.withResult v).cs = s.cs := rfl
@[simp] theorem State.withResult_dc : (s.withResult v).dc = s.dc := rfl
@[simp] theorem State.withResult_rst : (s.withResult v).rst = s.rst := rfl
@[simp] theorem State.withResult_lastBusy : (s.withResult v).lastBusy = s.lastBusy := rfl
@[simp] theorem State.withResult_tblIdx : (s.withResult v).tblIdx = s.tblIdx := rfl
@[simp] theorem State.withResult_byteIdx : (s.withResult v).byteIdx = s.byteIdx := rfl
@[simp] theorem State.withResult_pollCnt : (s.withResult v).pollCnt = s.pollCnt := rfl
@[simp] theorem State.withResult_fb : (s.withResult v).fb = s.fb := rfl
@[simp] theorem State.withResult_panel : (s.withResult v).panel = s.panel := rfl
@[simp] theorem State.withResult_cfg : (s.withResult v).cfg = s.cfg := rfl
@[simp] theorem State.withResult_trace : (s.withResult v).trace = s.trace := rfl
@[simp] theorem State.withResult_env : (s.withResult v).env = s.env := rfl
@[simp] theorem State.withResult_fbEpoch : (s.withResult v).fbEpoch = s.fbEpoch := rfl
@[simp] theorem State.withResult_host : (s.withResult v).host = s.host := rfl
@[simp] theorem State.withResult_loadErr : (s.withResult v).loadErr = s.loadErr := rfl
end withResult

section withDone
variable (s : State) (v : Bool)
@[simp] theorem State.withDone_phase : (s.withDone v).phase = s.phase := rfl
@[simp] theorem State.withDone_active : (s.withDone v).active = s.active := rfl
@[simp] theorem State.withDone_seq : (s.withDone v).seq = s.seq := rfl
@[simp] theorem State.withDone_result : (s.withDone v).result = s.result := rfl
@[simp] theorem State.withDone_done : (s.withDone v).done = v := rfl
@[simp] theorem State.withDone_cs : (s.withDone v).cs = s.cs := rfl
@[simp] theorem State.withDone_dc : (s.withDone v).dc = s.dc := rfl
@[simp] theorem State.withDone_rst : (s.withDone v).rst = s.rst := rfl
@[simp] theorem State.withDone_lastBusy : (s.withDone v).lastBusy = s.lastBusy := rfl
@[simp] theorem State.withDone_tblIdx : (s.withDone v).tblIdx = s.tblIdx := rfl
@[simp] theorem State.withDone_byteIdx : (s.withDone v).byteIdx = s.byteIdx := rfl
@[simp] theorem State.withDone_pollCnt : (s.withDone v).pollCnt = s.pollCnt := rfl
@[simp] theorem State.withDone_fb : (s.withDone v).fb = s.fb := rfl
@[simp] theorem State.withDone_panel : (s.withDone v).panel = s.panel := rfl
@[simp] theorem State.withDone_cfg : (s.withDone v).cfg = s.cfg := rfl
@[simp] theorem State.withDone_trace : (s.withDone v).trace = s.trace := rfl
@[simp] theorem State.withDone_env : (s.withDone v).env = s.env := rfl
@[simp] theorem State.withDone_fbEpoch : (s.withDone v).fbEpoch = s.fbEpoch := rfl
@[simp] theorem State.withDone_host : (s.withDone v).host = s.host := rfl
@[simp] theorem State.withDone_loadErr : (s.withDone v).loadErr = s.loadErr := rfl
end withDone

section withCs
variable (s : State) (v : Option Level)
@[simp] theorem State.withCs_phase : (s.withCs v).phase = s.phase := rfl
@[simp] theorem State.withCs_active : (s.withCs v).active = s.active := rfl
@[simp] theorem State.withCs_seq : (s.withCs v).seq = s.seq := rfl
@[simp] theorem State.withCs_result : (s.withCs v).result = s.result := rfl
@[simp] theorem State.withCs_done : (s.withCs v).done = s.done := rfl
@[simp] theorem State.withCs_cs : (s.withCs v).cs = v := rfl
@[simp] theorem State.withCs_dc : (s.withCs v).dc = s.dc := rfl
@[simp] theorem State.withCs_rst : (s.withCs v).rst = s.rst := rfl
@[simp] theorem State.withCs_lastBusy : (s.withCs v).lastBusy = s.lastBusy := rfl
@[simp] theorem State.withCs_tblIdx : (s.withCs v).tblIdx = s.tblIdx := rfl
@[simp] theorem State.withCs_byteIdx : (s.withCs v).byteIdx = s.byteIdx := rfl
@[simp] theorem State.withCs_pollCnt : (s.withCs v).pollCnt = s.pollCnt := rfl
@[simp] theorem State.withCs_fb : (s.withCs v).fb = s.fb := rfl
@[simp] theorem State.withCs_panel : (s.withCs v).panel = s.panel := rfl
@[simp] theorem State.withCs_cfg : (s.withCs v).cfg = s.cfg := rfl
@[simp] theorem State.withCs_trace : (s.withCs v).trace = s.trace := rfl
@[simp] theorem State.withCs_env : (s.withCs v).env = s.env := rfl
@[simp] theorem State.withCs_fbEpoch : (s.withCs v).fbEpoch = s.fbEpoch := rfl
@[simp] theorem State.withCs_host : (s.withCs v).host = s.host := rfl
@[simp] theorem State.withCs_loadErr : (s.withCs v).loadErr = s.loadErr := rfl
end withCs

section withDc
variable (s : State) (v : Option Level)
@[simp] theorem State.withDc_phase : (s.withDc v).phase = s.phase := rfl
@[simp] theorem State.withDc_active : (s.withDc v).active = s.active := rfl
@[simp] theorem State.withDc_seq : (s.withDc v).seq = s.seq := rfl
@[simp] theorem State.withDc_result : (s.withDc v).result = s.result := rfl
@[simp] theorem State.withDc_done : (s.withDc v).done = s.done := rfl
@[simp] theorem State.withDc_cs : (s.withDc v).cs = s.cs := rfl
@[simp] theorem State.withDc_dc : (s.withDc v).dc = v := rfl
@[simp] theorem State.withDc_rst : (s.withDc v).rst = s.rst := rfl
@[simp] theorem State.withDc_lastBusy : (s.withDc v).lastBusy = s.lastBusy := rfl
@[simp] theorem State.withDc_tblIdx : (s.withDc v).tblIdx = s.tblIdx := rfl
@[simp] theorem State.withDc_byteIdx : (s.withDc v).byteIdx = s.byteIdx := rfl
@[simp] theorem State.withDc_pollCnt : (s.withDc v).pollCnt = s.pollCnt := rfl
@[simp] theorem State.withDc_fb : (s.withDc v).fb = s.fb := rfl
@[simp] theorem State.withDc_panel : (s.withDc v).panel = s.panel := rfl
@[simp] theorem State.withDc_cfg : (s.withDc v).cfg = s.cfg := rfl
@[simp] theorem State.withDc_trace : (s.withDc v).trace = s.trace := rfl
@[simp] theorem State.withDc_env : (s.withDc v).env = s.env := rfl
@[simp] theorem State.withDc_fbEpoch : (s.withDc v).fbEpoch = s.fbEpoch := rfl
@[simp] theorem State.withDc_host : (s.withDc v).host = s.host := rfl
@[simp] theorem State.withDc_loadErr : (s.withDc v).loadErr = s.loadErr := rfl
end withDc

section withRst
variable (s : State) (v : Option Level)
@[simp] theorem State.withRst_phase : (s.withRst v).phase = s.phase := rfl
@[simp] theorem State.withRst_active : (s.withRst v).active = s.active := rfl
@[simp] theorem State.withRst_seq : (s.withRst v).seq = s.seq := rfl
@[simp] theorem State.withRst_result : (s.withRst v).result = s.result := rfl
@[simp] theorem State.withRst_done : (s.withRst v).done = s.done := rfl
@[simp] theorem State.withRst_cs : (s.withRst v).cs = s.cs := rfl
@[simp] theorem State.withRst_dc : (s.withRst v).dc = s.dc := rfl
@[simp] theorem State.withRst_rst : (s.withRst v).rst = v := rfl
@[simp] theorem State.withRst_lastBusy : (s.withRst v).lastBusy = s.lastBusy := rfl
@[simp] theorem State.withRst_tblIdx : (s.withRst v).tblIdx = s.tblIdx := rfl
@[simp] theorem State.withRst_byteIdx : (s.withRst v).byteIdx = s.byteIdx := rfl
@[simp] theorem State.withRst_pollCnt : (s.withRst v).pollCnt = s.pollCnt := rfl
@[simp] theorem State.withRst_fb : (s.withRst v).fb = s.fb := rfl
@[simp] theorem State.withRst_panel : (s.withRst v).panel = s.panel := rfl
@[simp] theorem State.withRst_cfg : (s.withRst v).cfg = s.cfg := rfl
@[simp] theorem State.withRst_trace : (s.withRst v).trace = s.trace := rfl
@[simp] theorem State.withRst_env : (s.withRst v).env = s.env := rfl
@[simp] theorem State.withRst_fbEpoch : (s.withRst v).fbEpoch = s.fbEpoch := rfl
@[simp] theorem State.withRst_host : (s.withRst v).host = s.host := rfl
@[simp] theorem State.withRst_loadErr : (s.withRst v).loadErr = s.loadErr := rfl
end withRst

section withLastBusy
variable (s : State) (v : Option Level)
@[simp] theorem State.withLastBusy_phase : (s.withLastBusy v).phase = s.phase := rfl
@[simp] theorem State.withLastBusy_active : (s.withLastBusy v).active = s.active := rfl
@[simp] theorem State.withLastBusy_seq : (s.withLastBusy v).seq = s.seq := rfl
@[simp] theorem State.withLastBusy_result : (s.withLastBusy v).result = s.result := rfl
@[simp] theorem State.withLastBusy_done : (s.withLastBusy v).done = s.done := rfl
@[simp] theorem State.withLastBusy_cs : (s.withLastBusy v).cs = s.cs := rfl
@[simp] theorem State.withLastBusy_dc : (s.withLastBusy v).dc = s.dc := rfl
@[simp] theorem State.withLastBusy_rst : (s.withLastBusy v).rst = s.rst := rfl
@[simp] theorem State.withLastBusy_lastBusy : (s.withLastBusy v).lastBusy = v := rfl
@[simp] theorem State.withLastBusy_tblIdx : (s.withLastBusy v).tblIdx = s.tblIdx := rfl
@[simp] theorem State.withLastBusy_byteIdx : (s.withLastBusy v).byteIdx = s.byteIdx := rfl
@[simp] theorem State.withLastBusy_pollCnt : (s.withLastBusy v).pollCnt = s.pollCnt := rfl
@[simp] theorem State.withLastBusy_fb : (s.withLastBusy v).fb = s.fb := rfl
@[simp] theorem State.withLastBusy_panel : (s.withLastBusy v).panel = s.panel := rfl
@[simp] theorem State.withLastBusy_cfg : (s.withLastBusy v).cfg = s.cfg := rfl
@[simp] theorem State.withLastBusy_trace : (s.withLastBusy v).trace = s.trace := rfl
@[simp] theorem State.withLastBusy_env : (s.withLastBusy v).env = s.env := rfl
@[simp] theorem State.withLastBusy_fbEpoch : (s.withLastBusy v).fbEpoch = s.fbEpoch := rfl
@[simp] theorem State.withLastBusy_host : (s.withLastBusy v).host = s.host := rfl
@[simp] theorem State.withLastBusy_loadErr : (s.withLastBusy v).loadErr = s.loadErr := rfl
end withLastBusy

section withTblIdx
variable (s : State) (v : Option Nat)
@[simp] theorem State.withTblIdx_phase : (s.withTblIdx v).phase = s.phase := rfl
@[simp] theorem State.withTblIdx_active : (s.withTblIdx v).active = s.active := rfl
@[simp] theorem State.withTblIdx_seq : (s.withTblIdx v).seq = s.seq := rfl
@[simp] theorem State.withTblIdx_result : (s.withTblIdx v).result = s.result := rfl
@[simp] theorem State.withTblIdx_done : (s.withTblIdx v).done = s.done := rfl
@[simp] theorem State.withTblIdx_cs : (s.withTblIdx v).cs = s.cs := rfl
@[simp] theorem State.withTblIdx_dc : (s.withTblIdx v).dc = s.dc := rfl
@[simp] theorem State.withTblIdx_rst : (s.withTblIdx v).rst = s.rst := rfl
@[simp] theorem State.withTblIdx_lastBusy : (s.withTblIdx v).lastBusy = s.lastBusy := rfl
@[simp] theorem State.withTblIdx_tblIdx : (s.withTblIdx v).tblIdx = v := rfl
@[simp] theorem State.withTblIdx_byteIdx : (s.withTblIdx v).byteIdx = s.byteIdx := rfl
@[simp] theorem State.withTblIdx_pollCnt : (s.withTblIdx v).pollCnt = s.pollCnt := rfl
@[simp] theorem State.withTblIdx_fb : (s.withTblIdx v).fb = s.fb := rfl
@[simp] theorem State.withTblIdx_panel : (s.withTblIdx v).panel = s.panel := rfl
@[simp] theorem State.withTblIdx_cfg : (s.withTblIdx v).cfg = s.cfg := rfl
@[simp] theorem State.withTblIdx_trace : (s.withTblIdx v).trace = s.trace := rfl
@[simp] theorem State.withTblIdx_env : (s.withTblIdx v).env = s.env := rfl
@[simp] theorem State.withTblIdx_fbEpoch : (s.withTblIdx v).fbEpoch = s.fbEpoch := rfl
@[simp] theorem State.withTblIdx_host : (s.withTblIdx v).host = s.host := rfl
@[simp] theorem State.withTblIdx_loadErr : (s.withTblIdx v).loadErr = s.loadErr := rfl
end withTblIdx

section withByteIdx
variable (s : State) (v : Option Nat)
@[simp] theorem State.withByteIdx_phase : (s.withByteIdx v).phase = s.phase := rfl
@[simp] theorem State.withByteIdx_active : (s.withByteIdx v).active = s.active := rfl
@[simp] theorem State.withByteIdx_seq : (s.withByteIdx v).seq = s.seq := rfl
@[simp] theorem State.withByteIdx_result : (s.withByteIdx v).result = s.result := rfl
@[simp] theorem State.withByteIdx_done : (s.withByteIdx v).done = s.done := rfl
@[simp] theorem State.withByteIdx_cs : (s.withByteIdx v).cs = s.cs := rfl
@[simp] theorem State.withByteIdx_dc : (s.withByteIdx v).dc = s.dc := rfl
@[simp] theorem State.withByteIdx_rst : (s.withByteIdx v).rst = s.rst := rfl
@[simp] theorem State.withByteIdx_lastBusy : (s.withByteIdx v).lastBusy = s.lastBusy := rfl
@[simp] theorem State.withByteIdx_tblIdx : (s.withByteIdx v).tblIdx = s.tblIdx := rfl
@[simp] theorem State.withByteIdx_byteIdx : (s.withByteIdx v).byteIdx = v := rfl
@[simp] theorem State.withByteIdx_pollCnt : (s.withByteIdx v).pollCnt = s.pollCnt := rfl
@[simp] theorem State.withByteIdx_fb : (s.withByteIdx v).fb = s.fb := rfl
@[simp] theorem State.withByteIdx_panel : (s.withByteIdx v).panel = s.panel := rfl
@[simp] theorem State.withByteIdx_cfg : (s.withByteIdx v).cfg = s.cfg := rfl
@[simp] theorem State.withByteIdx_trace : (s.withByteIdx v).trace = s.trace := rfl
@[simp] theorem State.withByteIdx_env : (s.withByteIdx v).env = s.env := rfl
@[simp] theorem State.withByteIdx_fbEpoch : (s.withByteIdx v).fbEpoch = s.fbEpoch := rfl
@[simp] theorem State.withByteIdx_host : (s.withByteIdx v).host = s.host := rfl
@[simp] theorem State.withByteIdx_loadErr : (s.withByteIdx v).loadErr = s.loadErr := rfl
end withByteIdx

section withPollCnt
variable (s : State) (v : Option Nat)
@[simp] theorem State.withPollCnt_phase : (s.withPollCnt v).phase = s.phase := rfl
@[simp] theorem State.withPollCnt_active : (s.withPollCnt v).active = s.active := rfl
@[simp] theorem State.withPollCnt_seq : (s.withPollCnt v).seq = s.seq := rfl
@[simp] theorem State.withPollCnt_result : (s.withPollCnt v).result = s.result := rfl
@[simp] theorem State.withPollCnt_done : (s.withPollCnt v).done = s.done := rfl
@[simp] theorem State.withPollCnt_cs : (s.withPollCnt v).cs = s.cs := rfl
@[simp] theorem State.withPollCnt_dc : (s.withPollCnt v).dc = s.dc := rfl
@[simp] theorem State.withPollCnt_rst : (s.withPollCnt v).rst = s.rst := rfl
@[simp] theorem State.withPollCnt_lastBusy : (s.withPollCnt v).lastBusy = s.lastBusy := rfl
@[simp] theorem State.withPollCnt_tblIdx : (s.withPollCnt v).tblIdx = s.tblIdx := rfl
@[simp] theorem State.withPollCnt_byteIdx : (s.withPollCnt v).byteIdx = s.byteIdx := rfl
@[simp] theorem State.withPollCnt_pollCnt : (s.withPollCnt v).pollCnt = v := rfl
@[simp] theorem State.withPollCnt_fb : (s.withPollCnt v).fb = s.fb := rfl
@[simp] theorem State.withPollCnt_panel : (s.withPollCnt v).panel = s.panel := rfl
@[simp] theorem State.withPollCnt_cfg : (s.withPollCnt v).cfg = s.cfg := rfl
@[simp] theorem State.withPollCnt_trace : (s.withPollCnt v).trace = s.trace := rfl
@[simp] theorem State.withPollCnt_env : (s.withPollCnt v).env = s.env := rfl
@[simp] theorem State.withPollCnt_fbEpoch : (s.withPollCnt v).fbEpoch = s.fbEpoch := rfl
@[simp] theorem State.withPollCnt_host : (s.withPollCnt v).host = s.host := rfl
@[simp] theorem State.withPollCnt_loadErr : (s.withPollCnt v).loadErr = s.loadErr := rfl
end withPollCnt

section withFb
variable (s : State) (v : Memory)
@[simp] theorem State.withFb_phase : (s.withFb v).phase = s.phase := rfl
@[simp] theorem State.withFb_active : (s.withFb v).active = s.active := rfl
@[simp] theorem State.withFb_seq : (s.withFb v).seq = s.seq := rfl
@[simp] theorem State.withFb_result : (s.withFb v).result = s.result := rfl
@[simp] theorem State.withFb_done : (s.withFb v).done = s.done := rfl
@[simp] theorem State.withFb_cs : (s.withFb v).cs = s.cs := rfl
@[simp] theorem State.withFb_dc : (s.withFb v).dc = s.dc := rfl
@[simp] theorem State.withFb_rst : (s.withFb v).rst = s.rst := rfl
@[simp] theorem State.withFb_lastBusy : (s.withFb v).lastBusy = s.lastBusy := rfl
@[simp] theorem State.withFb_tblIdx : (s.withFb v).tblIdx = s.tblIdx := rfl
@[simp] theorem State.withFb_byteIdx : (s.withFb v).byteIdx = s.byteIdx := rfl
@[simp] theorem State.withFb_pollCnt : (s.withFb v).pollCnt = s.pollCnt := rfl
@[simp] theorem State.withFb_fb : (s.withFb v).fb = v := rfl
@[simp] theorem State.withFb_panel : (s.withFb v).panel = s.panel := rfl
@[simp] theorem State.withFb_cfg : (s.withFb v).cfg = s.cfg := rfl
@[simp] theorem State.withFb_trace : (s.withFb v).trace = s.trace := rfl
@[simp] theorem State.withFb_env : (s.withFb v).env = s.env := rfl
@[simp] theorem State.withFb_fbEpoch : (s.withFb v).fbEpoch = s.fbEpoch := rfl
@[simp] theorem State.withFb_host : (s.withFb v).host = s.host := rfl
@[simp] theorem State.withFb_loadErr : (s.withFb v).loadErr = s.loadErr := rfl
end withFb

section withPanel
variable (s : State) (v : Panel)
@[simp] theorem State.withPanel_phase : (s.withPanel v).phase = s.phase := rfl
@[simp] theorem State.withPanel_active : (s.withPanel v).active = s.active := rfl
@[simp] theorem State.withPanel_seq : (s.withPanel v).seq = s.seq := rfl
@[simp] theorem State.withPanel_result : (s.withPanel v).result = s.result := rfl
@[simp] theorem State.withPanel_done : (s.withPanel v).done = s.done := rfl
@[simp] theorem State.withPanel_cs : (s.withPanel v).cs = s.cs := rfl
@[simp] theorem State.withPanel_dc : (s.withPanel v).dc = s.dc := rfl
@[simp] theorem State.withPanel_rst : (s.withPanel v).rst = s.rst := rfl
@[simp] theorem State.withPanel_lastBusy : (s.withPanel v).lastBusy = s.lastBusy := rfl
@[simp] theorem State.withPanel_tblIdx : (s.withPanel v).tblIdx = s.tblIdx := rfl
@[simp] theorem State.withPanel_byteIdx : (s.withPanel v).byteIdx = s.byteIdx := rfl
@[simp] theorem State.withPanel_pollCnt : (s.withPanel v).pollCnt = s.pollCnt := rfl
@[simp] theorem State.withPanel_fb : (s.withPanel v).fb = s.fb := rfl
@[simp] theorem State.withPanel_panel : (s.withPanel v).panel = v := rfl
@[simp] theorem State.withPanel_cfg : (s.withPanel v).cfg = s.cfg := rfl
@[simp] theorem State.withPanel_trace : (s.withPanel v).trace = s.trace := rfl
@[simp] theorem State.withPanel_env : (s.withPanel v).env = s.env := rfl
@[simp] theorem State.withPanel_fbEpoch : (s.withPanel v).fbEpoch = s.fbEpoch := rfl
@[simp] theorem State.withPanel_host : (s.withPanel v).host = s.host := rfl
@[simp] theorem State.withPanel_loadErr : (s.withPanel v).loadErr = s.loadErr := rfl
end withPanel

section withTrace
variable (s : State) (v : List Event)
@[simp] theorem State.withTrace_phase : (s.withTrace v).phase = s.phase := rfl
@[simp] theorem State.withTrace_active : (s.withTrace v).active = s.active := rfl
@[simp] theorem State.withTrace_seq : (s.withTrace v).seq = s.seq := rfl
@[simp] theorem State.withTrace_result : (s.withTrace v).result = s.result := rfl
@[simp] theorem State.withTrace_done : (s.withTrace v).done = s.done := rfl
@[simp] theorem State.withTrace_cs : (s.withTrace v).cs = s.cs := rfl
@[simp] theorem State.withTrace_dc : (s.withTrace v).dc = s.dc := rfl
@[simp] theorem State.withTrace_rst : (s.withTrace v).rst = s.rst := rfl
@[simp] theorem State.withTrace_lastBusy : (s.withTrace v).lastBusy = s.lastBusy := rfl
@[simp] theorem State.withTrace_tblIdx : (s.withTrace v).tblIdx = s.tblIdx := rfl
@[simp] theorem State.withTrace_byteIdx : (s.withTrace v).byteIdx = s.byteIdx := rfl
@[simp] theorem State.withTrace_pollCnt : (s.withTrace v).pollCnt = s.pollCnt := rfl
@[simp] theorem State.withTrace_fb : (s.withTrace v).fb = s.fb := rfl
@[simp] theorem State.withTrace_panel : (s.withTrace v).panel = s.panel := rfl
@[simp] theorem State.withTrace_cfg : (s.withTrace v).cfg = s.cfg := rfl
@[simp] theorem State.withTrace_trace : (s.withTrace v).trace = v := rfl
@[simp] theorem State.withTrace_env : (s.withTrace v).env = s.env := rfl
@[simp] theorem State.withTrace_fbEpoch : (s.withTrace v).fbEpoch = s.fbEpoch := rfl
@[simp] theorem State.withTrace_host : (s.withTrace v).host = s.host := rfl
@[simp] theorem State.withTrace_loadErr : (s.withTrace v).loadErr = s.loadErr := rfl
end withTrace

section withEnv
variable (s : State) (v : Env)
@[simp] theorem State.withEnv_phase : (s.withEnv v).phase = s.phase := rfl
@[simp] theorem State.withEnv_active : (s.withEnv v).active = s.active := rfl
@[simp] theorem State.withEnv_seq : (s.withEnv v).seq = s.seq := rfl
@[simp] theorem State.withEnv_result : (s.withEnv v).result = s.result := rfl
@[simp] theorem State.withEnv_done : (s.withEnv v).done = s.done := rfl
@[simp] theorem State.withEnv_cs : (s.withEnv v).cs = s.cs := rfl
@[simp] theorem State.withEnv_dc : (s.withEnv v).dc = s.dc := rfl
@[simp] theorem State.withEnv_rst : (s.withEnv v).rst = s.rst := rfl
@[simp] theorem State.withEnv_lastBusy : (s.withEnv v).lastBusy = s.lastBusy := rfl
@[simp] theorem State.withEnv_tblIdx : (s.withEnv v).tblIdx = s.tblIdx := rfl
@[simp] theorem State.withEnv_byteIdx : (s.withEnv v).byteIdx = s.byteIdx := rfl
@[simp] theorem State.withEnv_pollCnt : (s.withEnv v).pollCnt = s.pollCnt := rfl
@[simp] theorem State.withEnv_fb : (s.withEnv v).fb = s.fb := rfl
@[simp] theorem State.withEnv_panel : (s.withEnv v).panel = s.panel := rfl
@[simp] theorem State.withEnv_cfg : (s.withEnv v).cfg = s.cfg := rfl
@[simp] theorem State.withEnv_trace : (s.withEnv v).trace = s.trace := rfl
@[simp] theorem State.withEnv_env : (s.withEnv v).env = v := rfl
@[simp] theorem State.withEnv_fbEpoch : (s.withEnv v).fbEpoch = s.fbEpoch := rfl
@[simp] theorem State.withEnv_host : (s.withEnv v).host = s.host := rfl
@[simp] theorem State.withEnv_loadErr : (s.withEnv v).loadErr = s.loadErr := rfl
end withEnv

section withHost
variable (s : State) (v : List HostAction)
@[simp] theorem State.withHost_phase : (s.withHost v).phase = s.phase := rfl
@[simp] theorem State.withHost_active : (s.withHost v).active = s.active := rfl
@[simp] theorem State.withHost_seq : (s.withHost v).seq = s.seq := rfl
@[simp] theorem State.withHost_result : (s.withHost v).result = s.result := rfl
@[simp] theorem State.withHost_done : (s.withHost v).done = s.done := rfl
@[simp] theorem State.withHost_cs : (s.withHost v).cs = s.cs := rfl
@[simp] theorem State.withHost_dc : (s.withHost v).dc = s.dc := rfl
@[simp] theorem State.withHost_rst : (s.withHost v).rst = s.rst := rfl
@[simp] theorem State.withHost_lastBusy : (s.withHost v).lastBusy = s.lastBusy := rfl
@[simp] theorem State.withHost_tblIdx : (s.withHost v).tblIdx = s.tblIdx := rfl
@[simp] theorem State.withHost_byteIdx : (s.withHost v).byteIdx = s.byteIdx := rfl
@[simp] theorem State.withHost_pollCnt : (s.withHost v).pollCnt = s.pollCnt := rfl
@[simp] theorem State.withHost_fb : (s.withHost v).fb = s.fb := rfl
@[simp] theorem State.withHost_panel : (s.withHost v).panel = s.panel := rfl
@[simp] theorem State.withHost_cfg : (s.withHost v).cfg = s.cfg := rfl
@[simp] theorem State.withHost_trace : (s.withHost v).trace = s.trace := rfl
@[simp] theorem State.withHost_env : (s.withHost v).env = s.env := rfl
@[simp] theorem State.withHost_fbEpoch : (s.withHost v).fbEpoch = s.fbEpoch := rfl
@[simp] theorem State.withHost_host : (s.withHost v).host = v := rfl
@[simp] theorem State.withHost_loadErr : (s.withHost v).loadErr = s.loadErr := rfl
end withHost

section withLoadErr
variable (s : State) (v : Err)
@[simp] theorem State.withLoadErr_phase : (s.withLoadErr v).phase = s.phase := rfl
@[simp] theorem State.withLoadErr_active : (s.withLoadErr v).active = s.active := rfl
@[simp] theorem State.withLoadErr_seq : (s.withLoadErr v).seq = s.seq := rfl
@[simp] theorem State.withLoadErr_result : (s.withLoadErr v).result = s.result := rfl
@[simp] theorem State.withLoadErr_done : (s.withLoadErr v).done = s.done := rfl
@[simp] theorem State.withLoadErr_cs : (s.withLoadErr v).cs = s.cs := rfl
@[simp] theorem State.withLoadErr_dc : (s.withLoadErr v).dc = s.dc := rfl
@[simp] theorem State.withLoadErr_rst : (s.withLoadErr v).rst = s.rst := rfl
@[simp] theorem State.withLoadErr_lastBusy : (s.withLoadErr v).lastBusy = s.lastBusy := rfl
@[simp] theorem State.withLoadErr_tblIdx : (s.withLoadErr v).tblIdx = s.tblIdx := rfl
@[simp] theorem State.withLoadErr_byteIdx : (s.withLoadErr v).byteIdx = s.byteIdx := rfl
@[simp] theorem State.withLoadErr_pollCnt : (s.withLoadErr v).pollCnt = s.pollCnt := rfl
@[simp] theorem State.withLoadErr_fb : (s.withLoadErr v).fb = s.fb := rfl
@[simp] theorem State.withLoadErr_panel : (s.withLoadErr v).panel = s.panel := rfl
@[simp] theorem State.withLoadErr_cfg : (s.withLoadErr v).cfg = s.cfg := rfl
@[simp] theorem State.withLoadErr_trace : (s.withLoadErr v).trace = s.trace := rfl
@[simp] theorem State.withLoadErr_env : (s.withLoadErr v).env = s.env := rfl
@[simp] theorem State.withLoadErr_fbEpoch : (s.withLoadErr v).fbEpoch = s.fbEpoch := rfl
@[simp] theorem State.withLoadErr_host : (s.withLoadErr v).host = s.host := rfl
@[simp] theorem State.withLoadErr_loadErr : (s.withLoadErr v).loadErr = v := rfl
end withLoadErr

end Sys2Proof.Machine
end

