-- ==== Sys2Proof/Laws/Ops.lean ====
section
/-! SUPPORT. Laws/Ops.lean: what each shared operation of Machine/Ops.lean does, once: every field after it, and the closed form
of a busy-wait. Proofs cite these and do not unfold the operations. -/

namespace Sys2Proof.Machine

section emit
variable (e : Event) (s : State)
@[simp] theorem emit_phase : (emit e s).phase = s.phase := rfl
@[simp] theorem emit_active : (emit e s).active = s.active := rfl
@[simp] theorem emit_seq : (emit e s).seq = s.seq := rfl
@[simp] theorem emit_result : (emit e s).result = s.result := rfl
@[simp] theorem emit_done : (emit e s).done = s.done := rfl
@[simp] theorem emit_cs : (emit e s).cs = s.cs := rfl
@[simp] theorem emit_dc : (emit e s).dc = s.dc := rfl
@[simp] theorem emit_rst : (emit e s).rst = s.rst := rfl
@[simp] theorem emit_lastBusy : (emit e s).lastBusy = s.lastBusy := rfl
@[simp] theorem emit_tblIdx : (emit e s).tblIdx = s.tblIdx := rfl
@[simp] theorem emit_byteIdx : (emit e s).byteIdx = s.byteIdx := rfl
@[simp] theorem emit_pollCnt : (emit e s).pollCnt = s.pollCnt := rfl
@[simp] theorem emit_fb : (emit e s).fb = s.fb := rfl
@[simp] theorem emit_panel : (emit e s).panel = s.panel := rfl
@[simp] theorem emit_cfg : (emit e s).cfg = s.cfg := rfl
@[simp] theorem emit_trace : (emit e s).trace = s.trace ++ [e] := rfl
@[simp] theorem emit_env : (emit e s).env = s.env := rfl
@[simp] theorem emit_fbEpoch : (emit e s).fbEpoch = s.fbEpoch := rfl
@[simp] theorem emit_host : (emit e s).host = s.host := rfl
@[simp] theorem emit_loadErr : (emit e s).loadErr = s.loadErr := rfl
end emit

@[simp] theorem setLatch_cs_cs (v : Level) (s : State) : setLatch .cs v s = s.withCs (some v) := rfl
@[simp] theorem setLatch_dc_dc (v : Level) (s : State) : setLatch .dc v s = s.withDc (some v) := rfl
@[simp] theorem setLatch_rst_rst (v : Level) (s : State) : setLatch .rst v s = s.withRst (some v) := rfl

section pinWrite
variable (l : Line) (v : Level) (s : State)
@[simp] theorem pinWrite_phase : (pinWrite l v s).phase = s.phase := by cases l <;> rfl
@[simp] theorem pinWrite_active : (pinWrite l v s).active = s.active := by cases l <;> rfl
@[simp] theorem pinWrite_seq : (pinWrite l v s).seq = s.seq := by cases l <;> rfl
@[simp] theorem pinWrite_result : (pinWrite l v s).result = s.result := by cases l <;> rfl
@[simp] theorem pinWrite_done : (pinWrite l v s).done = s.done := by cases l <;> rfl
@[simp] theorem pinWrite_cs : (pinWrite l v s).cs = if l = .cs then some v else s.cs := by cases l <;> rfl
@[simp] theorem pinWrite_dc : (pinWrite l v s).dc = if l = .dc then some v else s.dc := by cases l <;> rfl
@[simp] theorem pinWrite_rst : (pinWrite l v s).rst = if l = .rst then some v else s.rst := by cases l <;> rfl
@[simp] theorem pinWrite_lastBusy : (pinWrite l v s).lastBusy = s.lastBusy := by cases l <;> rfl
@[simp] theorem pinWrite_tblIdx : (pinWrite l v s).tblIdx = s.tblIdx := by cases l <;> rfl
@[simp] theorem pinWrite_byteIdx : (pinWrite l v s).byteIdx = s.byteIdx := by cases l <;> rfl
@[simp] theorem pinWrite_pollCnt : (pinWrite l v s).pollCnt = s.pollCnt := by cases l <;> rfl
@[simp] theorem pinWrite_fb : (pinWrite l v s).fb = s.fb := by cases l <;> rfl
@[simp] theorem pinWrite_panel : (pinWrite l v s).panel = s.panel := by cases l <;> rfl
@[simp] theorem pinWrite_cfg : (pinWrite l v s).cfg = s.cfg := by cases l <;> rfl
@[simp] theorem pinWrite_trace : (pinWrite l v s).trace = s.trace ++ [.pin l v] := by cases l <;> rfl
@[simp] theorem pinWrite_env : (pinWrite l v s).env = s.env := by cases l <;> rfl
@[simp] theorem pinWrite_fbEpoch : (pinWrite l v s).fbEpoch = s.fbEpoch := by cases l <;> rfl
@[simp] theorem pinWrite_host : (pinWrite l v s).host = s.host := by cases l <;> rfl
@[simp] theorem pinWrite_loadErr : (pinWrite l v s).loadErr = s.loadErr := by cases l <;> rfl
end pinWrite

section delay
variable (us : Nat) (s : State)
@[simp] theorem delay_phase : (delay us s).phase = s.phase := rfl
@[simp] theorem delay_active : (delay us s).active = s.active := rfl
@[simp] theorem delay_seq : (delay us s).seq = s.seq := rfl
@[simp] theorem delay_result : (delay us s).result = s.result := rfl
@[simp] theorem delay_done : (delay us s).done = s.done := rfl
@[simp] theorem delay_cs : (delay us s).cs = s.cs := rfl
@[simp] theorem delay_dc : (delay us s).dc = s.dc := rfl
@[simp] theorem delay_rst : (delay us s).rst = s.rst := rfl
@[simp] theorem delay_lastBusy : (delay us s).lastBusy = s.lastBusy := rfl
@[simp] theorem delay_tblIdx : (delay us s).tblIdx = s.tblIdx := rfl
@[simp] theorem delay_byteIdx : (delay us s).byteIdx = s.byteIdx := rfl
@[simp] theorem delay_pollCnt : (delay us s).pollCnt = s.pollCnt := rfl
@[simp] theorem delay_fb : (delay us s).fb = s.fb := rfl
@[simp] theorem delay_panel : (delay us s).panel = s.panel := rfl
@[simp] theorem delay_cfg : (delay us s).cfg = s.cfg := rfl
@[simp] theorem delay_trace : (delay us s).trace = s.trace ++ [.delay us] := rfl
@[simp] theorem delay_env : (delay us s).env = s.env := rfl
@[simp] theorem delay_fbEpoch : (delay us s).fbEpoch = s.fbEpoch := rfl
@[simp] theorem delay_host : (delay us s).host = s.host := rfl
@[simp] theorem delay_loadErr : (delay us s).loadErr = s.loadErr := rfl
end delay

@[simp] theorem busTransfer_fst (bs : List Byte) (s : State) :
    (busTransfer bs s).1 = legalOutcome bs.length (s.env.busAt 0) := by simp [busTransfer]

section busTransfer
variable (bs : List Byte) (s : State)
@[simp] theorem busTransfer_phase : ((busTransfer bs s).2).phase = s.phase := by simp [busTransfer]
@[simp] theorem busTransfer_active : ((busTransfer bs s).2).active = s.active := by simp [busTransfer]
@[simp] theorem busTransfer_seq : ((busTransfer bs s).2).seq = s.seq := by simp [busTransfer]
@[simp] theorem busTransfer_result : ((busTransfer bs s).2).result = s.result := by simp [busTransfer]
@[simp] theorem busTransfer_done : ((busTransfer bs s).2).done = s.done := by simp [busTransfer]
@[simp] theorem busTransfer_cs : ((busTransfer bs s).2).cs = s.cs := by simp [busTransfer]
@[simp] theorem busTransfer_dc : ((busTransfer bs s).2).dc = s.dc := by simp [busTransfer]
@[simp] theorem busTransfer_rst : ((busTransfer bs s).2).rst = s.rst := by simp [busTransfer]
@[simp] theorem busTransfer_lastBusy : ((busTransfer bs s).2).lastBusy = s.lastBusy := by simp [busTransfer]
@[simp] theorem busTransfer_tblIdx : ((busTransfer bs s).2).tblIdx = s.tblIdx := by simp [busTransfer]
@[simp] theorem busTransfer_byteIdx : ((busTransfer bs s).2).byteIdx = none := by simp [busTransfer]
@[simp] theorem busTransfer_pollCnt : ((busTransfer bs s).2).pollCnt = s.pollCnt := by simp [busTransfer]
@[simp] theorem busTransfer_fb : ((busTransfer bs s).2).fb = s.fb := by simp [busTransfer]
@[simp] theorem busTransfer_panel : ((busTransfer bs s).2).panel = s.panel := by simp [busTransfer]
@[simp] theorem busTransfer_cfg : ((busTransfer bs s).2).cfg = s.cfg := by simp [busTransfer]
@[simp] theorem busTransfer_trace : ((busTransfer bs s).2).trace = s.trace ++ [.bus bs (legalOutcome bs.length (s.env.busAt 0))] := by simp [busTransfer]
@[simp] theorem busTransfer_env : ((busTransfer bs s).2).env = s.env.afterBus := by simp [busTransfer]
@[simp] theorem busTransfer_fbEpoch : ((busTransfer bs s).2).fbEpoch = s.fbEpoch := by simp [busTransfer]
@[simp] theorem busTransfer_host : ((busTransfer bs s).2).host = s.host := by simp [busTransfer]
@[simp] theorem busTransfer_loadErr : ((busTransfer bs s).2).loadErr = s.loadErr := by simp [busTransfer]
end busTransfer

@[simp] theorem sampleBusy_fst (s : State) : (sampleBusy s).1 = s.env.busyAt 0 := by simp [sampleBusy]

section sampleBusy
variable  (s : State)
@[simp] theorem sampleBusy_phase : ((sampleBusy s).2).phase = s.phase := by simp [sampleBusy]
@[simp] theorem sampleBusy_active : ((sampleBusy s).2).active = s.active := by simp [sampleBusy]
@[simp] theorem sampleBusy_seq : ((sampleBusy s).2).seq = s.seq := by simp [sampleBusy]
@[simp] theorem sampleBusy_result : ((sampleBusy s).2).result = s.result := by simp [sampleBusy]
@[simp] theorem sampleBusy_done : ((sampleBusy s).2).done = s.done := by simp [sampleBusy]
@[simp] theorem sampleBusy_cs : ((sampleBusy s).2).cs = s.cs := by simp [sampleBusy]
@[simp] theorem sampleBusy_dc : ((sampleBusy s).2).dc = s.dc := by simp [sampleBusy]
@[simp] theorem sampleBusy_rst : ((sampleBusy s).2).rst = s.rst := by simp [sampleBusy]
@[simp] theorem sampleBusy_lastBusy : ((sampleBusy s).2).lastBusy = some (s.env.busyAt 0) := by simp [sampleBusy]
@[simp] theorem sampleBusy_tblIdx : ((sampleBusy s).2).tblIdx = s.tblIdx := by simp [sampleBusy]
@[simp] theorem sampleBusy_byteIdx : ((sampleBusy s).2).byteIdx = s.byteIdx := by simp [sampleBusy]
@[simp] theorem sampleBusy_pollCnt : ((sampleBusy s).2).pollCnt = s.pollCnt := by simp [sampleBusy]
@[simp] theorem sampleBusy_fb : ((sampleBusy s).2).fb = s.fb := by simp [sampleBusy]
@[simp] theorem sampleBusy_panel : ((sampleBusy s).2).panel = s.panel := by simp [sampleBusy]
@[simp] theorem sampleBusy_cfg : ((sampleBusy s).2).cfg = s.cfg := by simp [sampleBusy]
@[simp] theorem sampleBusy_trace : ((sampleBusy s).2).trace = s.trace ++ [.busy (s.env.busyAt 0)] := by simp [sampleBusy]
@[simp] theorem sampleBusy_env : ((sampleBusy s).2).env = s.env.afterBusy := by simp [sampleBusy]
@[simp] theorem sampleBusy_fbEpoch : ((sampleBusy s).2).fbEpoch = s.fbEpoch := by simp [sampleBusy]
@[simp] theorem sampleBusy_host : ((sampleBusy s).2).host = s.host := by simp [sampleBusy]
@[simp] theorem sampleBusy_loadErr : ((sampleBusy s).2).loadErr = s.loadErr := by simp [sampleBusy]
end sampleBusy

/-- SendCommand returns the environment's answer to a one-byte burst (R73). -/
@[simp] theorem sendCommand_fst (c : Byte) (s : State) : (sendCommand c s).1 = legalOutcome 1 (s.env.busAt 0) := by
  simp [sendCommand]

section sendCommand
variable (c : Byte) (s : State)
@[simp] theorem sendCommand_phase : ((sendCommand c s).2).phase = s.phase := by simp [sendCommand]
@[simp] theorem sendCommand_active : ((sendCommand c s).2).active = s.active := by simp [sendCommand]
@[simp] theorem sendCommand_seq : ((sendCommand c s).2).seq = s.seq := by simp [sendCommand]
@[simp] theorem sendCommand_result : ((sendCommand c s).2).result = s.result := by simp [sendCommand]
@[simp] theorem sendCommand_done : ((sendCommand c s).2).done = s.done := by simp [sendCommand]
@[simp] theorem sendCommand_cs : ((sendCommand c s).2).cs = some .high := by simp [sendCommand]
@[simp] theorem sendCommand_dc : ((sendCommand c s).2).dc = some .low := by simp [sendCommand]
@[simp] theorem sendCommand_rst : ((sendCommand c s).2).rst = s.rst := by simp [sendCommand]
@[simp] theorem sendCommand_lastBusy : ((sendCommand c s).2).lastBusy = s.lastBusy := by simp [sendCommand]
@[simp] theorem sendCommand_tblIdx : ((sendCommand c s).2).tblIdx = s.tblIdx := by simp [sendCommand]
@[simp] theorem sendCommand_byteIdx : ((sendCommand c s).2).byteIdx = none := by simp [sendCommand]
@[simp] theorem sendCommand_pollCnt : ((sendCommand c s).2).pollCnt = s.pollCnt := by simp [sendCommand]
@[simp] theorem sendCommand_fb : ((sendCommand c s).2).fb = s.fb := by simp [sendCommand]
@[simp] theorem sendCommand_panel : ((sendCommand c s).2).panel = s.panel := by simp [sendCommand]
@[simp] theorem sendCommand_cfg : ((sendCommand c s).2).cfg = s.cfg := by simp [sendCommand]
@[simp] theorem sendCommand_trace : ((sendCommand c s).2).trace = s.trace ++ commandTrace c (legalOutcome 1 (s.env.busAt 0)) := by simp [sendCommand, commandTrace]
@[simp] theorem sendCommand_env : ((sendCommand c s).2).env = s.env.afterBus := by simp [sendCommand]
@[simp] theorem sendCommand_fbEpoch : ((sendCommand c s).2).fbEpoch = s.fbEpoch := by simp [sendCommand]
@[simp] theorem sendCommand_host : ((sendCommand c s).2).host = s.host := by simp [sendCommand]
@[simp] theorem sendCommand_loadErr : ((sendCommand c s).2).loadErr = s.loadErr := by simp [sendCommand]
end sendCommand

/-- SendData of an empty list does nothing (R74). -/
@[simp] theorem sendData_nil (s : State) : sendData [] s = (.ok, s) := rfl

theorem sendData_fst (bs : List Byte) (s : State) :
    (sendData bs s).1 = if bs = [] then .ok else legalOutcome bs.length (s.env.busAt 0) := by
  cases bs <;> simp [sendData]

theorem sendData_fst_of_ne {bs : List Byte} (h : bs ≠ []) (s : State) :
    (sendData bs s).1 = legalOutcome bs.length (s.env.busAt 0) := by simp [sendData_fst, h]

section sendData
variable (bs : List Byte) (s : State)
@[simp] theorem sendData_phase : ((sendData bs s).2).phase = s.phase := by cases bs <;> simp [sendData]
@[simp] theorem sendData_active : ((sendData bs s).2).active = s.active := by cases bs <;> simp [sendData]
@[simp] theorem sendData_seq : ((sendData bs s).2).seq = s.seq := by cases bs <;> simp [sendData]
@[simp] theorem sendData_result : ((sendData bs s).2).result = s.result := by cases bs <;> simp [sendData]
@[simp] theorem sendData_done : ((sendData bs s).2).done = s.done := by cases bs <;> simp [sendData]
@[simp] theorem sendData_cs : ((sendData bs s).2).cs = if bs = [] then s.cs else some .high := by cases bs <;> simp [sendData]
@[simp] theorem sendData_dc : ((sendData bs s).2).dc = if bs = [] then s.dc else some .high := by cases bs <;> simp [sendData]
@[simp] theorem sendData_rst : ((sendData bs s).2).rst = s.rst := by cases bs <;> simp [sendData]
@[simp] theorem sendData_lastBusy : ((sendData bs s).2).lastBusy = s.lastBusy := by cases bs <;> simp [sendData]
@[simp] theorem sendData_tblIdx : ((sendData bs s).2).tblIdx = s.tblIdx := by cases bs <;> simp [sendData]
@[simp] theorem sendData_byteIdx : ((sendData bs s).2).byteIdx = if bs = [] then s.byteIdx else none := by cases bs <;> simp [sendData]
@[simp] theorem sendData_pollCnt : ((sendData bs s).2).pollCnt = s.pollCnt := by cases bs <;> simp [sendData]
@[simp] theorem sendData_fb : ((sendData bs s).2).fb = s.fb := by cases bs <;> simp [sendData]
@[simp] theorem sendData_panel : ((sendData bs s).2).panel = s.panel := by cases bs <;> simp [sendData]
@[simp] theorem sendData_cfg : ((sendData bs s).2).cfg = s.cfg := by cases bs <;> simp [sendData]
@[simp] theorem sendData_trace : ((sendData bs s).2).trace = s.trace ++ dataTrace bs (sendData bs s).1 := by cases bs <;> simp [sendData, dataTrace]
@[simp] theorem sendData_env : ((sendData bs s).2).env = if bs = [] then s.env else s.env.afterBus := by cases bs <;> simp [sendData]
@[simp] theorem sendData_fbEpoch : ((sendData bs s).2).fbEpoch = s.fbEpoch := by cases bs <;> simp [sendData]
@[simp] theorem sendData_host : ((sendData bs s).2).host = s.host := by cases bs <;> simp [sendData]
@[simp] theorem sendData_loadErr : ((sendData bs s).2).loadErr = s.loadErr := by cases bs <;> simp [sendData]
end sendData

section setPanelRam
variable (i : Image) (s : State)
@[simp] theorem setPanelRam_phase : (setPanelRam i s).phase = s.phase := rfl
@[simp] theorem setPanelRam_active : (setPanelRam i s).active = s.active := rfl
@[simp] theorem setPanelRam_seq : (setPanelRam i s).seq = s.seq := rfl
@[simp] theorem setPanelRam_result : (setPanelRam i s).result = s.result := rfl
@[simp] theorem setPanelRam_done : (setPanelRam i s).done = s.done := rfl
@[simp] theorem setPanelRam_cs : (setPanelRam i s).cs = s.cs := rfl
@[simp] theorem setPanelRam_dc : (setPanelRam i s).dc = s.dc := rfl
@[simp] theorem setPanelRam_rst : (setPanelRam i s).rst = s.rst := rfl
@[simp] theorem setPanelRam_lastBusy : (setPanelRam i s).lastBusy = s.lastBusy := rfl
@[simp] theorem setPanelRam_tblIdx : (setPanelRam i s).tblIdx = s.tblIdx := rfl
@[simp] theorem setPanelRam_byteIdx : (setPanelRam i s).byteIdx = s.byteIdx := rfl
@[simp] theorem setPanelRam_pollCnt : (setPanelRam i s).pollCnt = s.pollCnt := rfl
@[simp] theorem setPanelRam_fb : (setPanelRam i s).fb = s.fb := rfl
@[simp] theorem setPanelRam_panel : (setPanelRam i s).panel = { s.panel with ram := i } := rfl
@[simp] theorem setPanelRam_cfg : (setPanelRam i s).cfg = s.cfg := rfl
@[simp] theorem setPanelRam_trace : (setPanelRam i s).trace = s.trace := rfl
@[simp] theorem setPanelRam_env : (setPanelRam i s).env = s.env := rfl
@[simp] theorem setPanelRam_fbEpoch : (setPanelRam i s).fbEpoch = s.fbEpoch := rfl
@[simp] theorem setPanelRam_host : (setPanelRam i s).host = s.host := rfl
@[simp] theorem setPanelRam_loadErr : (setPanelRam i s).loadErr = s.loadErr := rfl
end setPanelRam

section setPanelVisible
variable (i : Image) (s : State)
@[simp] theorem setPanelVisible_phase : (setPanelVisible i s).phase = s.phase := rfl
@[simp] theorem setPanelVisible_active : (setPanelVisible i s).active = s.active := rfl
@[simp] theorem setPanelVisible_seq : (setPanelVisible i s).seq = s.seq := rfl
@[simp] theorem setPanelVisible_result : (setPanelVisible i s).result = s.result := rfl
@[simp] theorem setPanelVisible_done : (setPanelVisible i s).done = s.done := rfl
@[simp] theorem setPanelVisible_cs : (setPanelVisible i s).cs = s.cs := rfl
@[simp] theorem setPanelVisible_dc : (setPanelVisible i s).dc = s.dc := rfl
@[simp] theorem setPanelVisible_rst : (setPanelVisible i s).rst = s.rst := rfl
@[simp] theorem setPanelVisible_lastBusy : (setPanelVisible i s).lastBusy = s.lastBusy := rfl
@[simp] theorem setPanelVisible_tblIdx : (setPanelVisible i s).tblIdx = s.tblIdx := rfl
@[simp] theorem setPanelVisible_byteIdx : (setPanelVisible i s).byteIdx = s.byteIdx := rfl
@[simp] theorem setPanelVisible_pollCnt : (setPanelVisible i s).pollCnt = s.pollCnt := rfl
@[simp] theorem setPanelVisible_fb : (setPanelVisible i s).fb = s.fb := rfl
@[simp] theorem setPanelVisible_panel : (setPanelVisible i s).panel = { s.panel with visible := i } := rfl
@[simp] theorem setPanelVisible_cfg : (setPanelVisible i s).cfg = s.cfg := rfl
@[simp] theorem setPanelVisible_trace : (setPanelVisible i s).trace = s.trace := rfl
@[simp] theorem setPanelVisible_env : (setPanelVisible i s).env = s.env := rfl
@[simp] theorem setPanelVisible_fbEpoch : (setPanelVisible i s).fbEpoch = s.fbEpoch := rfl
@[simp] theorem setPanelVisible_host : (setPanelVisible i s).host = s.host := rfl
@[simp] theorem setPanelVisible_loadErr : (setPanelVisible i s).loadErr = s.loadErr := rfl
end setPanelVisible

section setPanelConfig
variable (c : PanelConfig) (s : State)
@[simp] theorem setPanelConfig_phase : (setPanelConfig c s).phase = s.phase := rfl
@[simp] theorem setPanelConfig_active : (setPanelConfig c s).active = s.active := rfl
@[simp] theorem setPanelConfig_seq : (setPanelConfig c s).seq = s.seq := rfl
@[simp] theorem setPanelConfig_result : (setPanelConfig c s).result = s.result := rfl
@[simp] theorem setPanelConfig_done : (setPanelConfig c s).done = s.done := rfl
@[simp] theorem setPanelConfig_cs : (setPanelConfig c s).cs = s.cs := rfl
@[simp] theorem setPanelConfig_dc : (setPanelConfig c s).dc = s.dc := rfl
@[simp] theorem setPanelConfig_rst : (setPanelConfig c s).rst = s.rst := rfl
@[simp] theorem setPanelConfig_lastBusy : (setPanelConfig c s).lastBusy = s.lastBusy := rfl
@[simp] theorem setPanelConfig_tblIdx : (setPanelConfig c s).tblIdx = s.tblIdx := rfl
@[simp] theorem setPanelConfig_byteIdx : (setPanelConfig c s).byteIdx = s.byteIdx := rfl
@[simp] theorem setPanelConfig_pollCnt : (setPanelConfig c s).pollCnt = s.pollCnt := rfl
@[simp] theorem setPanelConfig_fb : (setPanelConfig c s).fb = s.fb := rfl
@[simp] theorem setPanelConfig_panel : (setPanelConfig c s).panel = { s.panel with config := c } := rfl
@[simp] theorem setPanelConfig_cfg : (setPanelConfig c s).cfg = s.cfg := rfl
@[simp] theorem setPanelConfig_trace : (setPanelConfig c s).trace = s.trace := rfl
@[simp] theorem setPanelConfig_env : (setPanelConfig c s).env = s.env := rfl
@[simp] theorem setPanelConfig_fbEpoch : (setPanelConfig c s).fbEpoch = s.fbEpoch := rfl
@[simp] theorem setPanelConfig_host : (setPanelConfig c s).host = s.host := rfl
@[simp] theorem setPanelConfig_loadErr : (setPanelConfig c s).loadErr = s.loadErr := rfl
end setPanelConfig

section resetPulse
variable  (s : State)
@[simp] theorem resetPulse_phase : (resetPulse s).phase = s.phase := by simp [resetPulse]
@[simp] theorem resetPulse_active : (resetPulse s).active = s.active := by simp [resetPulse]
@[simp] theorem resetPulse_seq : (resetPulse s).seq = s.seq := by simp [resetPulse]
@[simp] theorem resetPulse_result : (resetPulse s).result = s.result := by simp [resetPulse]
@[simp] theorem resetPulse_done : (resetPulse s).done = s.done := by simp [resetPulse]
@[simp] theorem resetPulse_cs : (resetPulse s).cs = s.cs := by simp [resetPulse]
@[simp] theorem resetPulse_dc : (resetPulse s).dc = s.dc := by simp [resetPulse]
@[simp] theorem resetPulse_rst : (resetPulse s).rst = some .high := by simp [resetPulse]
@[simp] theorem resetPulse_lastBusy : (resetPulse s).lastBusy = s.lastBusy := by simp [resetPulse]
@[simp] theorem resetPulse_tblIdx : (resetPulse s).tblIdx = s.tblIdx := by simp [resetPulse]
@[simp] theorem resetPulse_byteIdx : (resetPulse s).byteIdx = s.byteIdx := by simp [resetPulse]
@[simp] theorem resetPulse_pollCnt : (resetPulse s).pollCnt = s.pollCnt := by simp [resetPulse]
@[simp] theorem resetPulse_fb : (resetPulse s).fb = s.fb := by simp [resetPulse]
@[simp] theorem resetPulse_panel : (resetPulse s).panel = { s.panel with ram := .undefined } := by simp [resetPulse]
@[simp] theorem resetPulse_cfg : (resetPulse s).cfg = s.cfg := by simp [resetPulse]
@[simp] theorem resetPulse_trace : (resetPulse s).trace = s.trace ++ [.pin .rst .low, .delay s.cfg.tResetLowUs, .pin .rst .high, .delay s.cfg.tResetHighUs] := by simp [resetPulse]
@[simp] theorem resetPulse_env : (resetPulse s).env = s.env := by simp [resetPulse]
@[simp] theorem resetPulse_fbEpoch : (resetPulse s).fbEpoch = s.fbEpoch := by simp [resetPulse]
@[simp] theorem resetPulse_host : (resetPulse s).host = s.host := by simp [resetPulse]
@[simp] theorem resetPulse_loadErr : (resetPulse s).loadErr = s.loadErr := by simp [resetPulse]
end resetPulse

section countPoll
variable  (s : State)
@[simp] theorem countPoll_phase : (countPoll s).phase = s.phase := rfl
@[simp] theorem countPoll_active : (countPoll s).active = s.active := rfl
@[simp] theorem countPoll_seq : (countPoll s).seq = s.seq := rfl
@[simp] theorem countPoll_result : (countPoll s).result = s.result := rfl
@[simp] theorem countPoll_done : (countPoll s).done = s.done := rfl
@[simp] theorem countPoll_cs : (countPoll s).cs = s.cs := rfl
@[simp] theorem countPoll_dc : (countPoll s).dc = s.dc := rfl
@[simp] theorem countPoll_rst : (countPoll s).rst = s.rst := rfl
@[simp] theorem countPoll_lastBusy : (countPoll s).lastBusy = s.lastBusy := rfl
@[simp] theorem countPoll_tblIdx : (countPoll s).tblIdx = s.tblIdx := rfl
@[simp] theorem countPoll_byteIdx : (countPoll s).byteIdx = s.byteIdx := rfl
@[simp] theorem countPoll_pollCnt : (countPoll s).pollCnt = s.pollCnt.map (· + 1) := rfl
@[simp] theorem countPoll_fb : (countPoll s).fb = s.fb := rfl
@[simp] theorem countPoll_panel : (countPoll s).panel = s.panel := rfl
@[simp] theorem countPoll_cfg : (countPoll s).cfg = s.cfg := rfl
@[simp] theorem countPoll_trace : (countPoll s).trace = s.trace := rfl
@[simp] theorem countPoll_env : (countPoll s).env = s.env := rfl
@[simp] theorem countPoll_fbEpoch : (countPoll s).fbEpoch = s.fbEpoch := rfl
@[simp] theorem countPoll_host : (countPoll s).host = s.host := rfl
@[simp] theorem countPoll_loadErr : (countPoll s).loadErr = s.loadErr := rfl
end countPoll

section countEntry
variable  (s : State)
@[simp] theorem countEntry_phase : (countEntry s).phase = s.phase := rfl
@[simp] theorem countEntry_active : (countEntry s).active = s.active := rfl
@[simp] theorem countEntry_seq : (countEntry s).seq = s.seq := rfl
@[simp] theorem countEntry_result : (countEntry s).result = s.result := rfl
@[simp] theorem countEntry_done : (countEntry s).done = s.done := rfl
@[simp] theorem countEntry_cs : (countEntry s).cs = s.cs := rfl
@[simp] theorem countEntry_dc : (countEntry s).dc = s.dc := rfl
@[simp] theorem countEntry_rst : (countEntry s).rst = s.rst := rfl
@[simp] theorem countEntry_lastBusy : (countEntry s).lastBusy = s.lastBusy := rfl
@[simp] theorem countEntry_tblIdx : (countEntry s).tblIdx = s.tblIdx.map (· + 1) := rfl
@[simp] theorem countEntry_byteIdx : (countEntry s).byteIdx = s.byteIdx := rfl
@[simp] theorem countEntry_pollCnt : (countEntry s).pollCnt = s.pollCnt := rfl
@[simp] theorem countEntry_fb : (countEntry s).fb = s.fb := rfl
@[simp] theorem countEntry_panel : (countEntry s).panel = s.panel := rfl
@[simp] theorem countEntry_cfg : (countEntry s).cfg = s.cfg := rfl
@[simp] theorem countEntry_trace : (countEntry s).trace = s.trace := rfl
@[simp] theorem countEntry_env : (countEntry s).env = s.env := rfl
@[simp] theorem countEntry_fbEpoch : (countEntry s).fbEpoch = s.fbEpoch := rfl
@[simp] theorem countEntry_host : (countEntry s).host = s.host := rfl
@[simp] theorem countEntry_loadErr : (countEntry s).loadErr = s.loadErr := rfl
end countEntry

section finish
variable (r : Result) (s : State)
@[simp] theorem finish_phase : (finish r s).phase = s.phase := rfl
@[simp] theorem finish_active : (finish r s).active = false := rfl
@[simp] theorem finish_seq : (finish r s).seq = none := rfl
@[simp] theorem finish_result : (finish r s).result = r := rfl
@[simp] theorem finish_done : (finish r s).done = true := rfl
@[simp] theorem finish_cs : (finish r s).cs = s.cs := rfl
@[simp] theorem finish_dc : (finish r s).dc = s.dc := rfl
@[simp] theorem finish_rst : (finish r s).rst = s.rst := rfl
@[simp] theorem finish_lastBusy : (finish r s).lastBusy = s.lastBusy := rfl
@[simp] theorem finish_tblIdx : (finish r s).tblIdx = none := rfl
@[simp] theorem finish_byteIdx : (finish r s).byteIdx = none := rfl
@[simp] theorem finish_pollCnt : (finish r s).pollCnt = none := rfl
@[simp] theorem finish_fb : (finish r s).fb = s.fb := rfl
@[simp] theorem finish_panel : (finish r s).panel = s.panel := rfl
@[simp] theorem finish_cfg : (finish r s).cfg = s.cfg := rfl
@[simp] theorem finish_trace : (finish r s).trace = s.trace := rfl
@[simp] theorem finish_env : (finish r s).env = s.env := rfl
@[simp] theorem finish_fbEpoch : (finish r s).fbEpoch = s.fbEpoch := rfl
@[simp] theorem finish_host : (finish r s).host = s.host := rfl
@[simp] theorem finish_loadErr : (finish r s).loadErr = s.loadErr := rfl
end finish

section refuse
variable  (s : State)
@[simp] theorem refuse_phase : (refuse s).phase = s.phase := rfl
@[simp] theorem refuse_active : (refuse s).active = false := rfl
@[simp] theorem refuse_seq : (refuse s).seq = none := rfl
@[simp] theorem refuse_result : (refuse s).result = ⟨.illegalState, .none⟩ := rfl
@[simp] theorem refuse_done : (refuse s).done = true := rfl
@[simp] theorem refuse_cs : (refuse s).cs = s.cs := rfl
@[simp] theorem refuse_dc : (refuse s).dc = s.dc := rfl
@[simp] theorem refuse_rst : (refuse s).rst = s.rst := rfl
@[simp] theorem refuse_lastBusy : (refuse s).lastBusy = s.lastBusy := rfl
@[simp] theorem refuse_tblIdx : (refuse s).tblIdx = none := rfl
@[simp] theorem refuse_byteIdx : (refuse s).byteIdx = none := rfl
@[simp] theorem refuse_pollCnt : (refuse s).pollCnt = none := rfl
@[simp] theorem refuse_fb : (refuse s).fb = s.fb := rfl
@[simp] theorem refuse_panel : (refuse s).panel = s.panel := rfl
@[simp] theorem refuse_cfg : (refuse s).cfg = s.cfg := rfl
@[simp] theorem refuse_trace : (refuse s).trace = s.trace := rfl
@[simp] theorem refuse_env : (refuse s).env = s.env := rfl
@[simp] theorem refuse_fbEpoch : (refuse s).fbEpoch = s.fbEpoch := rfl
@[simp] theorem refuse_host : (refuse s).host = s.host := rfl
@[simp] theorem refuse_loadErr : (refuse s).loadErr = s.loadErr := rfl
end refuse

section raise
variable (e : Err) (c : Cause) (s : State)
@[simp] theorem raise_phase : (raise e c s).phase = .faulted := rfl
@[simp] theorem raise_active : (raise e c s).active = false := rfl
@[simp] theorem raise_seq : (raise e c s).seq = none := rfl
@[simp] theorem raise_result : (raise e c s).result = ⟨e, c⟩ := rfl
@[simp] theorem raise_done : (raise e c s).done = true := rfl
@[simp] theorem raise_cs : (raise e c s).cs = s.cs := rfl
@[simp] theorem raise_dc : (raise e c s).dc = s.dc := rfl
@[simp] theorem raise_rst : (raise e c s).rst = s.rst := rfl
@[simp] theorem raise_lastBusy : (raise e c s).lastBusy = s.lastBusy := rfl
@[simp] theorem raise_tblIdx : (raise e c s).tblIdx = none := rfl
@[simp] theorem raise_byteIdx : (raise e c s).byteIdx = none := rfl
@[simp] theorem raise_pollCnt : (raise e c s).pollCnt = none := rfl
@[simp] theorem raise_fb : (raise e c s).fb = s.fb := rfl
@[simp] theorem raise_panel : (raise e c s).panel = { s.panel with config := .undefined } := rfl
@[simp] theorem raise_cfg : (raise e c s).cfg = s.cfg := rfl
@[simp] theorem raise_trace : (raise e c s).trace = s.trace := rfl
@[simp] theorem raise_env : (raise e c s).env = s.env := rfl
@[simp] theorem raise_fbEpoch : (raise e c s).fbEpoch = s.fbEpoch := rfl
@[simp] theorem raise_host : (raise e c s).host = s.host := rfl
@[simp] theorem raise_loadErr : (raise e c s).loadErr = s.loadErr := rfl
end raise

section complete
variable (p : Phase) (s : State)
@[simp] theorem complete_phase : (complete p s).phase = p := rfl
@[simp] theorem complete_active : (complete p s).active = false := rfl
@[simp] theorem complete_seq : (complete p s).seq = none := rfl
@[simp] theorem complete_result : (complete p s).result = ⟨.ok, .none⟩ := rfl
@[simp] theorem complete_done : (complete p s).done = true := rfl
@[simp] theorem complete_cs : (complete p s).cs = s.cs := rfl
@[simp] theorem complete_dc : (complete p s).dc = s.dc := rfl
@[simp] theorem complete_rst : (complete p s).rst = s.rst := rfl
@[simp] theorem complete_lastBusy : (complete p s).lastBusy = s.lastBusy := rfl
@[simp] theorem complete_tblIdx : (complete p s).tblIdx = none := rfl
@[simp] theorem complete_byteIdx : (complete p s).byteIdx = none := rfl
@[simp] theorem complete_pollCnt : (complete p s).pollCnt = none := rfl
@[simp] theorem complete_fb : (complete p s).fb = s.fb := rfl
@[simp] theorem complete_panel : (complete p s).panel = s.panel := rfl
@[simp] theorem complete_cfg : (complete p s).cfg = s.cfg := rfl
@[simp] theorem complete_trace : (complete p s).trace = s.trace := rfl
@[simp] theorem complete_env : (complete p s).env = s.env := rfl
@[simp] theorem complete_fbEpoch : (complete p s).fbEpoch = s.fbEpoch := rfl
@[simp] theorem complete_host : (complete p s).host = s.host := rfl
@[simp] theorem complete_loadErr : (complete p s).loadErr = s.loadErr := rfl
end complete

/-! ## The busy-wait -/

theorem busyWaitLoop_low {n : Nat} {s : State} (h : s.env.busyAt 0 = .low) :
    busyWaitLoop n s = (.ok, (sampleBusy s).2) := by
  unfold busyWaitLoop; simp [sampleBusy, h]

theorem busyWaitLoop_high_zero {s : State} (h : s.env.busyAt 0 = .high) :
    busyWaitLoop 0 s = (.timeout, (sampleBusy s).2) := by
  unfold busyWaitLoop; simp [sampleBusy, h]

theorem busyWaitLoop_high_succ {n : Nat} {s : State} (h : s.env.busyAt 0 = .high) :
    busyWaitLoop (n + 1) s = busyWaitLoop n (countPoll (delay s.cfg.tPollUs (sampleBusy s).2)) := by
  rw [busyWaitLoop]; simp [sampleBusy, h]

/-- A busy-wait whose first low sample is number `w` (from 0), within the bound: it returns `ok`, having seen `w` high samples
with a delay after each, and that low one (R76). -/
theorem busyWaitLoop_clears {n w : Nat} {s : State} (hw : w ≤ n) (h : BusyClearsAfter w s.env) :
    (busyWaitLoop n s).1 = .ok
    ∧ (busyWaitLoop n s).2.trace = s.trace ++ waitTrace s.cfg.tPollUs w
    ∧ (busyWaitLoop n s).2.lastBusy = some .low := by
  induction w generalizing n s with
  | zero => simp [busyWaitLoop_low h.2, h.2, waitTrace, pollTrace]
  | succ w ih =>
    obtain ⟨n, rfl⟩ : ∃ k, n = k + 1 := ⟨n - 1, by omega⟩
    rw [busyWaitLoop_high_succ (h.1 0 (by omega))]
    have h' : BusyClearsAfter w (countPoll (delay s.cfg.tPollUs (sampleBusy s).2)).env := by
      constructor
      · intro j hj; simpa using h.1 (j + 1) (by omega)
      · simpa using h.2
    obtain ⟨h1, h2, h3⟩ := ih (n := n) (by omega) h'
    refine ⟨h1, ?_, h3⟩
    rw [h2]
    simp [waitTrace, pollTrace, h.1 0 (by omega)]

/-- A busy-wait that sees nothing but high samples: it returns `timeout` after `n` delays and `n + 1` samples (R76). -/
theorem busyWaitLoop_times_out {n : Nat} {s : State} (h : BusyHighFor (n + 1) s.env) :
    (busyWaitLoop n s).1 = .timeout
    ∧ (busyWaitLoop n s).2.trace = s.trace ++ timeoutTrace s.cfg.tPollUs n
    ∧ (busyWaitLoop n s).2.lastBusy = some .high := by
  induction n generalizing s with
  | zero => simp [busyWaitLoop_high_zero (h 0 (by omega)), h 0 (by omega), timeoutTrace, pollTrace]
  | succ n ih =>
    rw [busyWaitLoop_high_succ (h 0 (by omega))]
    have h' : BusyHighFor (n + 1) (countPoll (delay s.cfg.tPollUs (sampleBusy s).2)).env := by
      intro j hj; simpa using h (j + 1) (by omega)
    obtain ⟨h1, h2, h3⟩ := ih h'
    refine ⟨h1, ?_, h3⟩
    rw [h2]
    simp [timeoutTrace, pollTrace, h 0 (by omega)]

/-- Either a low sample comes within the bound, or all `n + 1` samples are high (R76). -/
theorem busy_clears_or_high (n : Nat) (e : Env) : (∃ w ≤ n, BusyClearsAfter w e) ∨ BusyHighFor (n + 1) e := by
  induction n with
  | zero =>
    cases h : e.busyAt 0 with
    | low => exact .inl ⟨0, le_refl 0, by simp, h⟩
    | high => exact .inr fun j hj => by rwa [show j = 0 by omega]
  | succ n ih =>
    rcases ih with ⟨w, hw, hc⟩ | hh
    · exact .inl ⟨w, by omega, hc⟩
    · cases h : e.busyAt (n + 1) with
      | low => exact .inl ⟨n + 1, le_refl _, fun j hj => hh j (by omega), h⟩
      | high =>
        refine .inr fun j hj => ?_
        rcases Nat.lt_or_ge j (n + 1) with hj' | hj'
        · exact hh j hj'
        · rwa [show j = n + 1 by omega]

section busyWaitLoop
variable (n : Nat) (s : State)
@[simp] theorem busyWaitLoop_phase : (busyWaitLoop n s).2.phase = s.phase := by
  induction n generalizing s with
  | zero => cases h : s.env.busyAt 0 <;> simp [busyWaitLoop_low, busyWaitLoop_high_zero, h]
  | succ n ih => cases h : s.env.busyAt 0 <;> simp [busyWaitLoop_low, busyWaitLoop_high_succ, h, ih]
@[simp] theorem busyWaitLoop_active : (busyWaitLoop n s).2.active = s.active := by
  induction n generalizing s with
  | zero => cases h : s.env.busyAt 0 <;> simp [busyWaitLoop_low, busyWaitLoop_high_zero, h]
  | succ n ih => cases h : s.env.busyAt 0 <;> simp [busyWaitLoop_low, busyWaitLoop_high_succ, h, ih]
@[simp] theorem busyWaitLoop_seq : (busyWaitLoop n s).2.seq = s.seq := by
  induction n generalizing s with
  | zero => cases h : s.env.busyAt 0 <;> simp [busyWaitLoop_low, busyWaitLoop_high_zero, h]
  | succ n ih => cases h : s.env.busyAt 0 <;> simp [busyWaitLoop_low, busyWaitLoop_high_succ, h, ih]
@[simp] theorem busyWaitLoop_result : (busyWaitLoop n s).2.result = s.result := by
  induction n generalizing s with
  | zero => cases h : s.env.busyAt 0 <;> simp [busyWaitLoop_low, busyWaitLoop_high_zero, h]
  | succ n ih => cases h : s.env.busyAt 0 <;> simp [busyWaitLoop_low, busyWaitLoop_high_succ, h, ih]
@[simp] theorem busyWaitLoop_done : (busyWaitLoop n s).2.done = s.done := by
  induction n generalizing s with
  | zero => cases h : s.env.busyAt 0 <;> simp [busyWaitLoop_low, busyWaitLoop_high_zero, h]
  | succ n ih => cases h : s.env.busyAt 0 <;> simp [busyWaitLoop_low, busyWaitLoop_high_succ, h, ih]
@[simp] theorem busyWaitLoop_cs : (busyWaitLoop n s).2.cs = s.cs := by
  induction n generalizing s with
  | zero => cases h : s.env.busyAt 0 <;> simp [busyWaitLoop_low, busyWaitLoop_high_zero, h]
  | succ n ih => cases h : s.env.busyAt 0 <;> simp [busyWaitLoop_low, busyWaitLoop_high_succ, h, ih]
@[simp] theorem busyWaitLoop_dc : (busyWaitLoop n s).2.dc = s.dc := by
  induction n generalizing s with
  | zero => cases h : s.env.busyAt 0 <;> simp [busyWaitLoop_low, busyWaitLoop_high_zero, h]
  | succ n ih => cases h : s.env.busyAt 0 <;> simp [busyWaitLoop_low, busyWaitLoop_high_succ, h, ih]
@[simp] theorem busyWaitLoop_rst : (busyWaitLoop n s).2.rst = s.rst := by
  induction n generalizing s with
  | zero => cases h : s.env.busyAt 0 <;> simp [busyWaitLoop_low, busyWaitLoop_high_zero, h]
  | succ n ih => cases h : s.env.busyAt 0 <;> simp [busyWaitLoop_low, busyWaitLoop_high_succ, h, ih]
@[simp] theorem busyWaitLoop_tblIdx : (busyWaitLoop n s).2.tblIdx = s.tblIdx := by
  induction n generalizing s with
  | zero => cases h : s.env.busyAt 0 <;> simp [busyWaitLoop_low, busyWaitLoop_high_zero, h]
  | succ n ih => cases h : s.env.busyAt 0 <;> simp [busyWaitLoop_low, busyWaitLoop_high_succ, h, ih]
@[simp] theorem busyWaitLoop_byteIdx : (busyWaitLoop n s).2.byteIdx = s.byteIdx := by
  induction n generalizing s with
  | zero => cases h : s.env.busyAt 0 <;> simp [busyWaitLoop_low, busyWaitLoop_high_zero, h]
  | succ n ih => cases h : s.env.busyAt 0 <;> simp [busyWaitLoop_low, busyWaitLoop_high_succ, h, ih]
@[simp] theorem busyWaitLoop_fb : (busyWaitLoop n s).2.fb = s.fb := by
  induction n generalizing s with
  | zero => cases h : s.env.busyAt 0 <;> simp [busyWaitLoop_low, busyWaitLoop_high_zero, h]
  | succ n ih => cases h : s.env.busyAt 0 <;> simp [busyWaitLoop_low, busyWaitLoop_high_succ, h, ih]
@[simp] theorem busyWaitLoop_panel : (busyWaitLoop n s).2.panel = s.panel := by
  induction n generalizing s with
  | zero => cases h : s.env.busyAt 0 <;> simp [busyWaitLoop_low, busyWaitLoop_high_zero, h]
  | succ n ih => cases h : s.env.busyAt 0 <;> simp [busyWaitLoop_low, busyWaitLoop_high_succ, h, ih]
@[simp] theorem busyWaitLoop_cfg : (busyWaitLoop n s).2.cfg = s.cfg := by
  induction n generalizing s with
  | zero => cases h : s.env.busyAt 0 <;> simp [busyWaitLoop_low, busyWaitLoop_high_zero, h]
  | succ n ih => cases h : s.env.busyAt 0 <;> simp [busyWaitLoop_low, busyWaitLoop_high_succ, h, ih]
@[simp] theorem busyWaitLoop_fbEpoch : (busyWaitLoop n s).2.fbEpoch = s.fbEpoch := by
  induction n generalizing s with
  | zero => cases h : s.env.busyAt 0 <;> simp [busyWaitLoop_low, busyWaitLoop_high_zero, h]
  | succ n ih => cases h : s.env.busyAt 0 <;> simp [busyWaitLoop_low, busyWaitLoop_high_succ, h, ih]
@[simp] theorem busyWaitLoop_host : (busyWaitLoop n s).2.host = s.host := by
  induction n generalizing s with
  | zero => cases h : s.env.busyAt 0 <;> simp [busyWaitLoop_low, busyWaitLoop_high_zero, h]
  | succ n ih => cases h : s.env.busyAt 0 <;> simp [busyWaitLoop_low, busyWaitLoop_high_succ, h, ih]
@[simp] theorem busyWaitLoop_loadErr : (busyWaitLoop n s).2.loadErr = s.loadErr := by
  induction n generalizing s with
  | zero => cases h : s.env.busyAt 0 <;> simp [busyWaitLoop_low, busyWaitLoop_high_zero, h]
  | succ n ih => cases h : s.env.busyAt 0 <;> simp [busyWaitLoop_low, busyWaitLoop_high_succ, h, ih]
end busyWaitLoop

section busyWait
variable (s : State)
@[simp] theorem busyWait_phase : (busyWait s).2.phase = s.phase := by simp [busyWait]
@[simp] theorem busyWait_active : (busyWait s).2.active = s.active := by simp [busyWait]
@[simp] theorem busyWait_seq : (busyWait s).2.seq = s.seq := by simp [busyWait]
@[simp] theorem busyWait_result : (busyWait s).2.result = s.result := by simp [busyWait]
@[simp] theorem busyWait_done : (busyWait s).2.done = s.done := by simp [busyWait]
@[simp] theorem busyWait_cs : (busyWait s).2.cs = s.cs := by simp [busyWait]
@[simp] theorem busyWait_dc : (busyWait s).2.dc = s.dc := by simp [busyWait]
@[simp] theorem busyWait_rst : (busyWait s).2.rst = s.rst := by simp [busyWait]
@[simp] theorem busyWait_tblIdx : (busyWait s).2.tblIdx = s.tblIdx := by simp [busyWait]
@[simp] theorem busyWait_byteIdx : (busyWait s).2.byteIdx = s.byteIdx := by simp [busyWait]
@[simp] theorem busyWait_fb : (busyWait s).2.fb = s.fb := by simp [busyWait]
@[simp] theorem busyWait_panel : (busyWait s).2.panel = s.panel := by simp [busyWait]
@[simp] theorem busyWait_cfg : (busyWait s).2.cfg = s.cfg := by simp [busyWait]
@[simp] theorem busyWait_fbEpoch : (busyWait s).2.fbEpoch = s.fbEpoch := by simp [busyWait]
@[simp] theorem busyWait_host : (busyWait s).2.host = s.host := by simp [busyWait]
@[simp] theorem busyWait_loadErr : (busyWait s).2.loadErr = s.loadErr := by simp [busyWait]
end busyWait

theorem busyWait_clears {w : Nat} {s : State} (hw : w ≤ s.cfg.nPollMax) (h : BusyClearsAfter w s.env) :
    (busyWait s).1 = .ok
    ∧ (busyWait s).2.trace = s.trace ++ waitTrace s.cfg.tPollUs w
    ∧ (busyWait s).2.lastBusy = some .low := by
  simpa [busyWait] using busyWaitLoop_clears (s := s.withPollCnt (some 0)) hw h

theorem busyWait_times_out {s : State} (h : BusyHighFor (s.cfg.nPollMax + 1) s.env) :
    (busyWait s).1 = .timeout
    ∧ (busyWait s).2.trace = s.trace ++ timeoutTrace s.cfg.tPollUs s.cfg.nPollMax
    ∧ (busyWait s).2.lastBusy = some .high := by
  simpa [busyWait] using busyWaitLoop_times_out (s := s.withPollCnt (some 0)) h

/-- Everything a busy-wait can do: it clears within the bound, or times out (R76). -/
theorem busyWait_cases (s : State) :
    (∃ w ≤ s.cfg.nPollMax, (busyWait s).1 = .ok ∧ BusyClearsAfter w s.env
      ∧ (busyWait s).2.trace = s.trace ++ waitTrace s.cfg.tPollUs w ∧ (busyWait s).2.lastBusy = some .low)
    ∨ ((busyWait s).1 = .timeout ∧ BusyHighFor (s.cfg.nPollMax + 1) s.env
      ∧ (busyWait s).2.trace = s.trace ++ timeoutTrace s.cfg.tPollUs s.cfg.nPollMax
      ∧ (busyWait s).2.lastBusy = some .high) := by
  rcases busy_clears_or_high s.cfg.nPollMax s.env with ⟨w, hw, h⟩ | h
  · obtain ⟨h1, h2, h3⟩ := busyWait_clears hw h
    exact .inl ⟨w, hw, h1, h, h2, h3⟩
  · obtain ⟨h1, h2, h3⟩ := busyWait_times_out h
    exact .inr ⟨h1, h, h2, h3⟩

/-! ## The guard -/

theorem opGuard_passes {op : Instr} {body : State → State} {s : State} (h : guardPasses op s.phase = true) :
    opGuard op body s = body (s.withActive true) := by simp [opGuard, h]

theorem opGuard_refuses {op : Instr} {body : State → State} {s : State} (h : guardPasses op s.phase = false) :
    opGuard op body s = refuse (s.withActive true) := by simp [opGuard, h]

@[simp] theorem guardPasses_initialise (p : Phase) : guardPasses .initialise p = true := rfl

@[simp] theorem guardPasses_ready (op : Instr) : guardPasses op .ready = true := by cases op <;> rfl

theorem guardPasses_eq_false {op : Instr} {p : Phase} : guardPasses op p = false ↔ op ≠ .initialise ∧ p ≠ .ready := by
  cases op <;> cases p <;> decide

end Sys2Proof.Machine
end

