-- ==== Sys2Proof/Laws/Bodies.lean ====
section
/-! SUPPORT. Laws/Bodies.lean: the init table sent whole, and the bodies of the four operations with their results named by
projections instead of matches, so that a proof can split on the answers and keep the rest folded. -/

namespace Sys2Proof.Machine

theorem sendEntry_eq (e : InitEntry) (s : State) :
    sendEntry e s = match (sendCommand e.cmd s).1 with
      | .fault k => (.fault k, (sendCommand e.cmd s).2)
      | .ok => sendData e.params (sendCommand e.cmd s).2 := by
  unfold sendEntry; split <;> simp_all

theorem sendTable_cons (e : InitEntry) (es : List InitEntry) (s : State) :
    sendTable (e :: es) s = match (sendEntry e s).1 with
      | .fault k => (.fault k, (sendEntry e s).2)
      | .ok => sendTable es (countEntry (sendEntry e s).2) := by
  rw [sendTable]; split <;> simp_all

@[simp] theorem sendTable_nil (s : State) : sendTable [] s = (.ok, s) := rfl

section sendEntry
variable (e : InitEntry) (s : State)
@[simp] theorem sendEntry_phase : (sendEntry e s).2.phase = s.phase := by rw [sendEntry_eq]; split <;> simp
@[simp] theorem sendEntry_active : (sendEntry e s).2.active = s.active := by rw [sendEntry_eq]; split <;> simp
@[simp] theorem sendEntry_seq : (sendEntry e s).2.seq = s.seq := by rw [sendEntry_eq]; split <;> simp
@[simp] theorem sendEntry_result : (sendEntry e s).2.result = s.result := by rw [sendEntry_eq]; split <;> simp
@[simp] theorem sendEntry_done : (sendEntry e s).2.done = s.done := by rw [sendEntry_eq]; split <;> simp
@[simp] theorem sendEntry_rst : (sendEntry e s).2.rst = s.rst := by rw [sendEntry_eq]; split <;> simp
@[simp] theorem sendEntry_lastBusy : (sendEntry e s).2.lastBusy = s.lastBusy := by rw [sendEntry_eq]; split <;> simp
@[simp] theorem sendEntry_pollCnt : (sendEntry e s).2.pollCnt = s.pollCnt := by rw [sendEntry_eq]; split <;> simp
@[simp] theorem sendEntry_fb : (sendEntry e s).2.fb = s.fb := by rw [sendEntry_eq]; split <;> simp
@[simp] theorem sendEntry_panel : (sendEntry e s).2.panel = s.panel := by rw [sendEntry_eq]; split <;> simp
@[simp] theorem sendEntry_cfg : (sendEntry e s).2.cfg = s.cfg := by rw [sendEntry_eq]; split <;> simp
@[simp] theorem sendEntry_fbEpoch : (sendEntry e s).2.fbEpoch = s.fbEpoch := by rw [sendEntry_eq]; split <;> simp
@[simp] theorem sendEntry_host : (sendEntry e s).2.host = s.host := by rw [sendEntry_eq]; split <;> simp
@[simp] theorem sendEntry_loadErr : (sendEntry e s).2.loadErr = s.loadErr := by rw [sendEntry_eq]; split <;> simp
@[simp] theorem sendEntry_tblIdx : (sendEntry e s).2.tblIdx = s.tblIdx := by rw [sendEntry_eq]; split <;> simp
end sendEntry

section sendTable
variable (es : List InitEntry) (s : State)
@[simp] theorem sendTable_phase : (sendTable es s).2.phase = s.phase := by
  induction es generalizing s with
  | nil => rfl
  | cons e es ih => rw [sendTable_cons]; split <;> simp [ih]
@[simp] theorem sendTable_active : (sendTable es s).2.active = s.active := by
  induction es generalizing s with
  | nil => rfl
  | cons e es ih => rw [sendTable_cons]; split <;> simp [ih]
@[simp] theorem sendTable_seq : (sendTable es s).2.seq = s.seq := by
  induction es generalizing s with
  | nil => rfl
  | cons e es ih => rw [sendTable_cons]; split <;> simp [ih]
@[simp] theorem sendTable_result : (sendTable es s).2.result = s.result := by
  induction es generalizing s with
  | nil => rfl
  | cons e es ih => rw [sendTable_cons]; split <;> simp [ih]
@[simp] theorem sendTable_done : (sendTable es s).2.done = s.done := by
  induction es generalizing s with
  | nil => rfl
  | cons e es ih => rw [sendTable_cons]; split <;> simp [ih]
@[simp] theorem sendTable_rst : (sendTable es s).2.rst = s.rst := by
  induction es generalizing s with
  | nil => rfl
  | cons e es ih => rw [sendTable_cons]; split <;> simp [ih]
@[simp] theorem sendTable_lastBusy : (sendTable es s).2.lastBusy = s.lastBusy := by
  induction es generalizing s with
  | nil => rfl
  | cons e es ih => rw [sendTable_cons]; split <;> simp [ih]
@[simp] theorem sendTable_pollCnt : (sendTable es s).2.pollCnt = s.pollCnt := by
  induction es generalizing s with
  | nil => rfl
  | cons e es ih => rw [sendTable_cons]; split <;> simp [ih]
@[simp] theorem sendTable_fb : (sendTable es s).2.fb = s.fb := by
  induction es generalizing s with
  | nil => rfl
  | cons e es ih => rw [sendTable_cons]; split <;> simp [ih]
@[simp] theorem sendTable_panel : (sendTable es s).2.panel = s.panel := by
  induction es generalizing s with
  | nil => rfl
  | cons e es ih => rw [sendTable_cons]; split <;> simp [ih]
@[simp] theorem sendTable_cfg : (sendTable es s).2.cfg = s.cfg := by
  induction es generalizing s with
  | nil => rfl
  | cons e es ih => rw [sendTable_cons]; split <;> simp [ih]
@[simp] theorem sendTable_fbEpoch : (sendTable es s).2.fbEpoch = s.fbEpoch := by
  induction es generalizing s with
  | nil => rfl
  | cons e es ih => rw [sendTable_cons]; split <;> simp [ih]
@[simp] theorem sendTable_host : (sendTable es s).2.host = s.host := by
  induction es generalizing s with
  | nil => rfl
  | cons e es ih => rw [sendTable_cons]; split <;> simp [ih]
@[simp] theorem sendTable_loadErr : (sendTable es s).2.loadErr = s.loadErr := by
  induction es generalizing s with
  | nil => rfl
  | cons e es ih => rw [sendTable_cons]; split <;> simp [ih]
end sendTable

theorem initialiseBody_eq (s : State) :
    initialiseBody s =
      let s₁ := resetPulse (pinWrite .cs .high (s.withPhase .uninitialized))
      let p := sendTable s₁.cfg.initTable (s₁.withTblIdx (some 0))
      match p.1 with
      | .fault _ => raise .hardwareInitError .busFault p.2
      | .ok =>
        match (busyWait p.2).1 with
        | .timeout => raise .hardwareInitError .busyTimeout (busyWait p.2).2
        | .ok => complete .ready (setPanelConfig .configured (busyWait p.2).2) := by
  unfold initialiseBody
  dsimp only
  generalize sendTable _ _ = p
  obtain ⟨_ | k, s₁⟩ := p <;> dsimp only
  generalize busyWait _ = w
  obtain ⟨_ | _, s₂⟩ := w <;> rfl

theorem updateFrameBody_eq (s : State) :
    updateFrameBody s =
      let s₁ := s.withPhase .transferringFrame
      let p := sendCommand s₁.cfg.cmdWriteRam s₁
      match p.1 with
      | .fault _ => raise .transferError .busFault (setPanelRam .undefined p.2)
      | .ok =>
        let d := sendData (frame p.2) p.2
        match d.1 with
        | .fault _ => raise .transferError .busFault (setPanelRam .undefined d.2)
        | .ok =>
          let w := busyWait (setPanelRam (.bytes (frame p.2)) d.2)
          match w.1 with
          | .timeout => raise .busyTimeout .busyTimeout (setPanelRam .undefined w.2)
          | .ok => complete .ready w.2 := by
  unfold updateFrameBody
  dsimp only
  generalize sendCommand _ _ = p
  obtain ⟨_ | k, s₁⟩ := p <;> dsimp only
  generalize sendData _ _ = d
  obtain ⟨_ | k, s₂⟩ := d <;> dsimp only
  generalize busyWait _ = w
  obtain ⟨_ | _, s₃⟩ := w <;> rfl

theorem displayFrameBody_eq (s : State) :
    displayFrameBody s =
      let p := sendCommand s.cfg.cmdRefresh s
      match p.1 with
      | .fault _ => raise .transferError .busFault (setPanelVisible .undefined p.2)
      | .ok =>
        let w := busyWait (p.2.withPhase .refreshing)
        match w.1 with
        | .timeout => raise .busyTimeout .busyTimeout (setPanelVisible .undefined w.2)
        | .ok => complete .ready (setPanelVisible w.2.panel.ram w.2) := by
  unfold displayFrameBody
  dsimp only
  generalize sendCommand _ _ = p
  obtain ⟨_ | k, s₁⟩ := p <;> dsimp only
  generalize busyWait _ = w
  obtain ⟨_ | _, s₂⟩ := w <;> rfl

theorem sleepBody_eq (s : State) :
    sleepBody s =
      let p := sendCommand s.cfg.cmdSleep s
      match p.1 with
      | .fault _ => raise .transferError .busFault p.2
      | .ok =>
        let d := sendData p.2.cfg.sleepParams p.2
        match d.1 with
        | .fault _ => raise .transferError .busFault d.2
        | .ok => complete .sleeping (setPanelConfig .asleep d.2) := by
  unfold sleepBody
  dsimp only
  generalize sendCommand _ _ = p
  obtain ⟨_ | k, s₁⟩ := p <;> dsimp only
  generalize sendData _ _ = d
  obtain ⟨_ | k, s₂⟩ := d <;> rfl

end Sys2Proof.Machine
end

