-- ==== Sys2Proof/Laws/Memory.lean ====
section
/-! SUPPORT. Laws/Memory.lean: reads after writes, and that every write keeps the canonical form of the framebuffer memory and
stays below `FB_BYTES`. -/

namespace Sys2Proof.Machine

@[simp] theorem Memory.read_nil (a : Nat) : Memory.read a [] = none := rfl

theorem Memory.read_write_same (a : Nat) (b : Byte) (m : Memory) : Memory.read a (Memory.write a b m) = some b := by
  induction m with
  | nil => simp [Memory.write, Memory.read]
  | cons c m ih =>
    simp only [Memory.write]
    split
    · simp [Memory.read]
    · split
      · simp [Memory.read]
      · simp [Memory.read, *]

/-- In the canonical form an address below the first listed one is not listed. -/
theorem Memory.read_none_of_lt {a : Nat} {m : Memory} (h : ∀ c ∈ m, a < c.1) : Memory.read a m = none := by
  induction m with
  | nil => rfl
  | cons c m ih =>
    have hc := h c (by simp)
    simp [Memory.read, show ¬ c.1 = a by omega, ih fun d hd => h d (by simp [hd])]

theorem Memory.read_write_other {a a' : Nat} (b : Byte) {m : Memory} (hne : a' ≠ a) :
    Memory.read a' (Memory.write a b m) = Memory.read a' m := by
  induction m with
  | nil => simp [Memory.write, Memory.read, Ne.symm hne]
  | cons c m ih =>
    simp only [Memory.write]
    split
    · simp [Memory.read, Ne.symm hne]
    · split
      · rename_i _ hc
        simp [Memory.read, Ne.symm hne, hc]
      · simp [Memory.read, ih]

theorem Memory.mem_write {a : Nat} {b : Byte} {m : Memory} {c : Host.Cell} (h : c ∈ Memory.write a b m) :
    c = (a, b) ∨ c ∈ m := by
  induction m with
  | nil => simpa [Memory.write] using h
  | cons d m ih =>
    simp only [Memory.write] at h
    split at h
    · simpa using h
    · split at h
      · rcases List.mem_cons.1 h with h | h
        · exact .inl h
        · exact .inr (by simp [h])
      · rcases List.mem_cons.1 h with h | h
        · exact .inr (by simp [h])
        · rcases ih h with h | h
          · exact .inl h
          · exact .inr (by simp [h])

theorem Memory.write_wf {a : Nat} {b : Byte} {m : Memory} (h : m.wf) : (Memory.write a b m).wf := by
  induction m with
  | nil => simp [Memory.write, Memory.wf]
  | cons c m ih =>
    obtain ⟨hc, hm⟩ := List.pairwise_cons.1 h
    simp only [Memory.write]
    split
    · rename_i hlt
      refine List.pairwise_cons.2 ⟨fun d hd => ?_, h⟩
      rcases List.mem_cons.1 hd with rfl | hd
      · exact hlt
      · exact hlt.trans (hc d hd)
    · split
      · rename_i _ heq
        exact List.pairwise_cons.2 ⟨fun d hd => heq ▸ hc d hd, hm⟩
      · refine List.pairwise_cons.2 ⟨fun d hd => ?_, ih hm⟩
        rcases Memory.mem_write hd with rfl | hd
        · simp; omega
        · exact hc d hd

theorem Memory.write_below {n a : Nat} {b : Byte} {m : Memory} (ha : a < n) (h : m.below n) :
    (Memory.write a b m).below n := by
  intro c hc
  rcases Memory.mem_write hc with rfl | hc
  · exact ha
  · exact h c hc

theorem Memory.writeBytes_wf {a : Nat} {bs : List Byte} {m : Memory} (h : m.wf) : (Memory.writeBytes a bs m).wf := by
  induction bs generalizing a with
  | nil => exact h
  | cons b bs ih => exact Memory.write_wf ih

theorem Memory.writeBytes_below {n a : Nat} {bs : List Byte} {m : Memory} (ha : a + bs.length ≤ n) (h : m.below n) :
    (Memory.writeBytes a bs m).below n := by
  induction bs generalizing a with
  | nil => exact h
  | cons b bs ih =>
    simp only [List.length_cons] at ha
    exact Memory.write_below (by omega) (ih (by omega))

/-- What a wide write leaves at an address: the byte of the list that lies there, or what was there before. -/
theorem Memory.read_writeBytes (a a' : Nat) (bs : List Byte) (m : Memory) :
    Memory.read a' (Memory.writeBytes a bs m)
      = if a ≤ a' ∧ a' < a + bs.length then bs[a' - a]? else Memory.read a' m := by
  induction bs generalizing a with
  | nil => simp [Memory.writeBytes]
  | cons b bs ih =>
    simp only [Memory.writeBytes, List.length_cons]
    by_cases h : a' = a
    · subst h
      simp [Memory.read_write_same]
    · rw [Memory.read_write_other b h, ih]
      by_cases h' : a + 1 ≤ a' ∧ a' < a + 1 + bs.length
      · rw [if_pos h', if_pos (by omega), show a' - a = (a' - (a + 1)) + 1 by omega]
        simp
      · rw [if_neg h', if_neg (by omega)]

/-! ## Bytes and the frame -/

@[simp] theorem memRead_length (a n : Nat) (s : State) : (memRead a n s).length = n := by simp [memRead]

@[simp] theorem frame_length (s : State) : (frame s).length = s.cfg.fbBytes := by simp [frame]

theorem memRead_getElem? {a n i : Nat} (s : State) (h : i < n) : (memRead a n s)[i]? = some (fbByte s (a + i)) := by
  simp [memRead, h]

/-- The frame depends on the memory, its epoch and the configuration alone. -/
theorem frame_congr {s t : State} (hf : t.fb = s.fb) (he : t.fbEpoch = s.fbEpoch) (hc : t.cfg = s.cfg) :
    frame t = frame s := by
  simp [frame, memRead, fbByte, hf, he, hc]

/-- A whole load makes the frame the loaded bytes. -/
theorem frame_of_load {s : State} {bs : List Byte} (h : bs.length = s.cfg.fbBytes) :
    frame (fbLoad bs s) = bs := by
  apply List.ext_getElem?
  intro i
  have hc : (fbLoad bs s).cfg = s.cfg := by simp [fbLoad, h, State.withLoadErr, State.withFb]
  by_cases hi : i < s.cfg.fbBytes
  · rw [frame, hc, memRead_getElem? _ hi]
    simp only [fbByte, fbLoad, h, ne_eq, not_true_eq_false, if_false, State.withLoadErr, State.withFb]
    rw [Memory.read_writeBytes, if_pos (by omega)]
    simp [h, hi]
  · rw [List.getElem?_eq_none (by simp [hc]; omega), List.getElem?_eq_none (by omega)]

end Sys2Proof.Machine
end

