-- ==== Sys2Proof/Laws/Table.lean ====
section
/-! SUPPORT. Laws/Table.lean: what one window, one entry and the whole of the init table do, told by the answers of the bus: all
windows are sent, or the first that faults ends it (R73, R74, R80, R82). Also the shape of `exec`. -/

namespace Sys2Proof.Machine

@[simp] theorem okTrace_nil : okTrace [] = [] := rfl

@[simp] theorem okTrace_cons (w : WireKind × List Byte) (ws : List (WireKind × List Byte)) :
    okTrace (w :: ws) = windowTrace w .ok ++ okTrace ws := rfl

theorem okTrace_append (ws vs : List (WireKind × List Byte)) : okTrace (ws ++ vs) = okTrace ws ++ okTrace vs := by
  induction ws with
  | nil => rfl
  | cons w ws ih => simp [ih]

@[simp] theorem windowTrace_command (c : Byte) (r : BusOutcome) : windowTrace (.cmd, [c]) r = commandTrace c r := rfl

theorem windowTrace_data {bs : List Byte} (h : bs ≠ []) (r : BusOutcome) : windowTrace (.data, bs) r = dataTrace bs r := by
  simp [windowTrace, dataTrace, h, dcLevel]

@[simp] theorem dataWindows_nil : dataWindows [] = [] := rfl

theorem dataWindows_of_ne {bs : List Byte} (h : bs ≠ []) : dataWindows bs = [(.data, bs)] := by simp [dataWindows, h]

/-- The windows of the table are never empty, and a command window is one byte. -/
theorem tableWindows_ne_nil {es : List InitEntry} {w : WireKind × List Byte} (h : w ∈ tableWindows es) : w.2 ≠ [] := by
  induction es with
  | nil => cases h
  | cons e es ih =>
    simp only [tableWindows, List.cons_append, List.mem_cons, List.mem_append] at h
    rcases h with rfl | h | h
    · simp
    · by_cases hp : e.params = []
      · simp [hp] at h
      · rw [dataWindows_of_ne hp] at h
        obtain rfl : w = (.data, e.params) := by simpa using h
        exact hp
    · exact ih h

/-- `BusOkFor` one burst at a time. -/
theorem BusOkFor_succ {n : Nat} {e : Env} : BusOkFor (n + 1) e ↔ e.busAt 0 = .ok ∧ BusOkFor n e.afterBus := by
  constructor
  · intro h
    exact ⟨h 0 (by omega), fun j hj => by simpa using h (j + 1) (by omega)⟩
  · rintro ⟨h0, h⟩ j hj
    cases j with
    | zero => exact h0
    | succ j => simpa using h j (by omega)

@[simp] theorem BusOkFor_zero (e : Env) : BusOkFor 0 e := fun _ h => absurd h (Nat.not_lt_zero _)

/-- How windows sent from a state end: `r` is what is returned, `t` the state after. -/
inductive WindowsEnd (ws : List (WireKind × List Byte)) (s : State) (r : BusOutcome) (t : State) : Prop where
  /-- Every window is answered `ok`. -/
  | sent (hr : r = .ok) (hbus : BusOkFor ws.length s.env) (htrace : t.trace = s.trace ++ okTrace ws)
      (henv : t.env = s.env.afterBusses ws.length)
      (hcs : ws ≠ [] → t.cs = some .high) (hnil : ws = [] → t.cs = s.cs ∧ t.dc = s.dc)
      (hdc : ∀ w, ws.getLast? = some w → t.dc = some (dcLevel w.1))
  /-- Window `j` is the first that faults. -/
  | faulted (j k : Nat) (w : WireKind × List Byte) (hw : ws[j]? = some w) (hbus : BusOkFor j s.env)
      (hk : s.env.busAt j = .fault k) (hr : r = .fault (k % w.2.length))
      (htrace : t.trace = s.trace ++ okTrace (ws.take j) ++ windowTrace w (.fault (k % w.2.length)))
      (henv : t.env = s.env.afterBusses (j + 1))
      (hcs : t.cs = some .high) (hdc : t.dc = some (dcLevel w.1))

/-- A command is one window (R73). -/
theorem sendCommand_windows (c : Byte) (s : State) :
    WindowsEnd [(.cmd, [c])] s (sendCommand c s).1 (sendCommand c s).2 := by
  cases h : s.env.busAt 0 with
  | ok =>
    exact .sent (by simp [h]) (fun j hj => by obtain rfl : j = 0 := by simpa using hj
                                              exact h)
      (by simp [h]) rfl (by simp) (by simp) (by simp [dcLevel])
  | fault k =>
    exact .faulted 0 k (.cmd, [c]) rfl (by simp) h (by simp [h]) (by simp [h]) rfl (by simp) (by simp [dcLevel])

/-- A block is one window, or none when it is empty (R74). -/
theorem sendData_windows (bs : List Byte) (s : State) :
    WindowsEnd (dataWindows bs) s (sendData bs s).1 (sendData bs s).2 := by
  by_cases hb : bs = []
  · subst hb
    exact .sent rfl (by simp) (by simp) rfl (by simp) (by simp) (by simp)
  · rw [dataWindows_of_ne hb]
    cases h : s.env.busAt 0 with
    | ok =>
      exact .sent (by simp [sendData_fst_of_ne hb, h]) (fun j hj => by obtain rfl : j = 0 := by simpa using hj
                                                                       exact h)
        (by simp [sendData_fst_of_ne hb, h, windowTrace_data hb]) (by simp [hb, Env.afterBusses]) (by simp [hb]) (by simp)
        (by simp [hb, dcLevel])
    | fault k =>
      exact .faulted 0 k (.data, bs) rfl (by simp) h (by simp [sendData_fst_of_ne hb, h])
        (by simp [sendData_fst_of_ne hb, h, windowTrace_data hb]) (by simp [hb, Env.afterBusses]) (by simp [hb])
        (by simp [hb, dcLevel])

theorem Env.afterBusses_add (e : Env) (m n : Nat) : (e.afterBusses m).afterBusses n = e.afterBusses (m + n) := by
  induction m generalizing e with
  | zero => simp [Env.afterBusses]
  | succ m ih => simpa [Env.afterBusses, Nat.succ_add] using ih e.afterBus

/-- Windows after windows: when the first are all sent, what the later ones do is what all of them do. -/
theorem WindowsEnd.append {ws vs : List (WireKind × List Byte)} {s t u : State} {r r' : BusOutcome}
    (h : WindowsEnd ws s r t) (hr : r = .ok) (h' : WindowsEnd vs t r' u) : WindowsEnd (ws ++ vs) s r' u := by
  cases h with
  | faulted j k w hw hbus hk hr' => rw [hr] at hr'; cases hr'
  | sent _ hbus htrace henv hcs hnil hdc =>
    cases h' with
    | sent hr' hbus' htrace' henv' hcs' hnil' hdc' =>
      refine .sent hr' ?_ ?_ ?_ ?_ ?_ ?_
      · intro j hj
        rcases Nat.lt_or_ge j ws.length with hlt | hge
        · exact hbus j hlt
        · have := hbus' (j - ws.length) (by simp at hj; omega)
          rwa [henv, Env.afterBusses_busAt, show ws.length + (j - ws.length) = j by omega] at this
      · simp [htrace', htrace, okTrace_append]
      · rw [henv', henv, Env.afterBusses_add, List.length_append]
      · intro hne
        by_cases hv : vs = []
        · rw [(hnil' hv).1]; exact hcs (by rintro rfl; exact hne (by simp [hv]))
        · exact hcs' hv
      · intro he
        obtain ⟨rfl, rfl⟩ := List.append_eq_nil_iff.1 he
        exact ⟨((hnil' rfl).1).trans (hnil rfl).1, ((hnil' rfl).2).trans (hnil rfl).2⟩
      · intro w hw
        by_cases hv : vs = []
        · rw [(hnil' hv).2]; exact hdc w (by simpa [hv] using hw)
        · refine hdc' w ?_
          rw [List.getLast?_append_of_ne_nil _ hv] at hw
          exact hw
    | faulted j k w hw hbus' hk hr' htrace' henv' hcs' hdc' =>
      refine .faulted (ws.length + j) k w (by rw [List.getElem?_append_right (by omega)]; simpa using hw) ?_ ?_ hr' ?_ ?_ hcs' hdc'
      · intro i hi
        rcases Nat.lt_or_ge i ws.length with hlt | hge
        · exact hbus i hlt
        · have := hbus' (i - ws.length) (by omega)
          rwa [henv, Env.afterBusses_busAt, show ws.length + (i - ws.length) = i by omega] at this
      · simpa [henv] using hk
      · simp [htrace', htrace, okTrace_append, List.take_append, List.take_of_length_le (show ws.length ≤ ws.length + j by omega)]
      · rw [henv', henv, Env.afterBusses_add, Nat.add_assoc]

/-- Windows after windows: when the first do not all pass, the later ones are not sent. -/
theorem WindowsEnd.stop {ws : List (WireKind × List Byte)} {s t : State} {r : BusOutcome} (vs : List (WireKind × List Byte))
    (h : WindowsEnd ws s r t) (hr : r ≠ .ok) : WindowsEnd (ws ++ vs) s r t := by
  cases h with
  | sent hr' => exact absurd hr' hr
  | faulted j k w hw hbus hk hr' htrace henv hcs hdc =>
    have hj : j < ws.length := (List.getElem?_eq_some_iff.1 hw).1
    exact .faulted j k w (by rw [List.getElem?_append_left hj, hw]) hbus hk hr'
      (by rw [htrace, List.take_append_of_le_length (by omega)]) henv hcs hdc

/-- An entry is its command window and its block's window, if it has one (R80 step 3). -/
theorem sendEntry_windows (e : InitEntry) (s : State) :
    WindowsEnd ((.cmd, [e.cmd]) :: dataWindows e.params) s (sendEntry e s).1 (sendEntry e s).2 := by
  have hc := sendCommand_windows e.cmd s
  rw [sendEntry_eq]
  cases h : (sendCommand e.cmd s).1 with
  | ok => exact (h ▸ hc).append rfl (sendData_windows e.params _)
  | fault k => exact (h ▸ hc).stop _ (by simp)

/-- A counter of the sequencer's own does not matter to what windows do. -/
theorem WindowsEnd.of_eq {ws : List (WireKind × List Byte)} {s s' t : State} {r : BusOutcome} (h : WindowsEnd ws s r t)
    (htr : s'.trace = s.trace) (henv : s'.env = s.env) (hcs : s'.cs = s.cs) (hdc : s'.dc = s.dc) : WindowsEnd ws s' r t := by
  cases h with
  | sent h1 h2 h3 h4 h5 h6 h7 => exact .sent h1 (henv ▸ h2) (htr ▸ h3) (henv ▸ h4) h5 (by simpa [hcs, hdc] using h6) h7
  | faulted j k w h1 h2 h3 h4 h5 h6 h7 h8 => exact .faulted j k w h1 (henv ▸ h2) (henv ▸ h3) h4 (htr ▸ h5) (henv ▸ h6) h7 h8

/-- The init table is its windows, in order (R80 step 3, R140). -/
theorem sendTable_windows (es : List InitEntry) (s : State) :
    WindowsEnd (tableWindows es) s (sendTable es s).1 (sendTable es s).2 := by
  induction es generalizing s with
  | nil => exact .sent rfl (by simp [tableWindows]) (by simp [tableWindows]) rfl (by simp [tableWindows]) (by simp) (by simp [tableWindows])
  | cons e es ih =>
    have he := sendEntry_windows e s
    rw [sendTable_cons]
    cases h : (sendEntry e s).1 with
    | ok => exact (h ▸ he).append rfl ((ih (countEntry (sendEntry e s).2)).of_eq rfl rfl rfl rfl)
    | fault k => exact (h ▸ he).stop _ (by simp)

/-! ## The shape of exec -/

/-- The body of an operation. -/
def bodyOf : Instr → State → State
  | .initialise   => initialiseBody
  | .updateFrame  => updateFrameBody
  | .displayFrame => displayFrameBody
  | .sleep        => sleepBody

/-- Every operation answers a next state: the guard on its body. -/
theorem exec_eq (i : Instr) (s : State) : exec i s = .next (opGuard i (bodyOf i) s) := by cases i <;> rfl

theorem exec_runs {i : Instr} {s : State} (h : guardPasses i s.phase = true) :
    exec i s = .next (bodyOf i (s.withActive true)) := by rw [exec_eq, opGuard_passes h]

theorem exec_refuses {i : Instr} {s : State} (h : guardPasses i s.phase = false) :
    exec i s = .next (refuse (s.withActive true)) := by rw [exec_eq, opGuard_refuses h]

end Sys2Proof.Machine
end

