-- ==== Sys2Proof/Laws/Operations.lean ====
section
/-! SUPPORT. Laws/Operations.lean: everything an operation that passes its guard can do, once for all four: it completes, or its
first faulting burst ends it, or its busy-wait runs out (`body_end`, `exec_cases`). Proofs about operations cite this and split on the
three ways. -/

namespace Sys2Proof.Machine

/-- The panel after an operation that completed (R20). -/
def panelOk (s : State) : Instr → Panel
  | .initialise   => ⟨.configured, .undefined, s.panel.visible⟩
  | .updateFrame  => ⟨s.panel.config, .bytes (frame s), s.panel.visible⟩
  | .displayFrame => ⟨s.panel.config, s.panel.ram, s.panel.ram⟩
  | .sleep        => ⟨.asleep, s.panel.ram, s.panel.visible⟩

/-- The panel after an operation that failed (R20). -/
def panelFailed (s : State) : Instr → Panel
  | .initialise   => ⟨.undefined, .undefined, s.panel.visible⟩
  | .updateFrame  => ⟨.undefined, .undefined, s.panel.visible⟩
  | .displayFrame => ⟨.undefined, s.panel.ram, .undefined⟩
  | .sleep        => ⟨.undefined, s.panel.ram, s.panel.visible⟩

/-- What every end of an accepted operation has in common: the frame, and the dead sequencer. -/
structure OpFrame (i : Instr) (s t : State) : Prop where
  fb      : t.fb = s.fb
  fbEpoch : t.fbEpoch = s.fbEpoch
  cfg     : t.cfg = s.cfg
  host    : t.host = s.host
  loadErr : t.loadErr = s.loadErr
  idle    : Idle t
  done    : t.done = true
  cs      : t.cs = some .high
  rst     : t.rst = if i = .initialise then some .high else s.rst

/-- How an accepted operation ends. -/
inductive OpEnd (i : Instr) (s t : State) : Prop where
  /-- It completes. -/
  | completed (w : Nat) (hbus : BusOkFor (opWindows s i).length s.env)
      (hw : i ≠ .sleep → w ≤ s.cfg.nPollMax ∧ BusyClearsAfter w s.env)
      (htrace : t.trace = s.trace ++ opPrelude s.cfg i ++ okTrace (opWindows s i)
        ++ if i = .sleep then [] else waitTrace s.cfg.tPollUs w)
      (hresult : t.result = ⟨.ok, .none⟩) (hphase : t.phase = targetPhase i)
      (hdc : ∀ v, (opWindows s i).getLast? = some v → t.dc = some (dcLevel v.1))
      (hnil : opWindows s i = [] → t.dc = s.dc)
      (hbusy : t.lastBusy = if i = .sleep then s.lastBusy else some .low)
      (henv : i = .sleep → ∀ n, t.env.busyAt n = s.env.busyAt n)
      (hpanel : t.panel = panelOk s i)
  /-- Its window `j` is the first that faults. -/
  | faulted (j k : Nat) (v : WireKind × List Byte) (hv : (opWindows s i)[j]? = some v) (hbus : BusOkFor j s.env)
      (hk : s.env.busAt j = .fault k)
      (htrace : t.trace = s.trace ++ opPrelude s.cfg i ++ okTrace ((opWindows s i).take j)
        ++ windowTrace v (.fault (k % v.2.length)))
      (hresult : t.result = busFaultResult i) (hphase : t.phase = .faulted)
      (hdc : t.dc = some (dcLevel v.1)) (hbusy : t.lastBusy = s.lastBusy)
      (henv : ∀ n, t.env.busyAt n = s.env.busyAt n)
      (hpanel : t.panel = panelFailed s i)
  /-- Its busy-wait runs out. -/
  | timedOut (hsleep : i ≠ .sleep) (hbus : BusOkFor (opWindows s i).length s.env)
      (hw : BusyHighFor (s.cfg.nPollMax + 1) s.env)
      (htrace : t.trace = s.trace ++ opPrelude s.cfg i ++ okTrace (opWindows s i)
        ++ timeoutTrace s.cfg.tPollUs s.cfg.nPollMax)
      (hresult : t.result = timeoutResult i) (hphase : t.phase = .faulted)
      (hdc : ∀ v, (opWindows s i).getLast? = some v → t.dc = some (dcLevel v.1))
      (hnil : opWindows s i = [] → t.dc = s.dc)
      (hbusy : t.lastBusy = some .high)
      (hpanel : t.panel = panelFailed s i)

/-- After an init table that starts with CS high, CS is high, whatever it does. -/
theorem sendTable_cs_high (es : List InitEntry) {s : State} (h : s.cs = some .high) : (sendTable es s).2.cs = some .high := by
  have hd (bs : List Byte) (u : State) (hu : u.cs = some .high) : (sendData bs u).2.cs = some .high := by
    rw [sendData_cs]; split <;> simp [hu]
  induction es generalizing s with
  | nil => exact h
  | cons e es ih =>
    have he : (sendEntry e s).2.cs = some .high := by
      rw [sendEntry_eq]
      split
      · simp
      · exact hd _ _ (by simp)
    rw [sendTable_cons]
    split
    · exact he
    · exact ih (by simpa using he)

theorem initialiseBody_frame (s : State) : OpFrame .initialise s (initialiseBody s) := by
  rw [initialiseBody_eq]
  have hcs := sendTable_cs_high s.cfg.initTable
    (s := (resetPulse (pinWrite .cs .high (s.withPhase .uninitialized))).withTblIdx (some 0)) (by simp)
  dsimp only
  split
  · constructor <;> simp [Idle, hcs]
  · split <;> constructor <;> simp [Idle, hcs]

theorem updateFrameBody_frame (s : State) : OpFrame .updateFrame s (updateFrameBody s) := by
  rw [updateFrameBody_eq]
  dsimp only
  split
  · constructor <;> simp [Idle]
  · split
    · constructor <;> simp [Idle]
    · split <;> constructor <;> simp [Idle]

theorem displayFrameBody_frame (s : State) : OpFrame .displayFrame s (displayFrameBody s) := by
  rw [displayFrameBody_eq]
  dsimp only
  split
  · constructor <;> simp [Idle]
  · split <;> constructor <;> simp [Idle]

theorem sleepBody_frame (s : State) : OpFrame .sleep s (sleepBody s) := by
  rw [sleepBody_eq]
  dsimp only
  split
  · constructor <;> simp [Idle]
  · split <;> constructor <;> simp [Idle]

theorem body_frame (i : Instr) (s : State) : OpFrame i s (bodyOf i s) := by
  cases i
  · exact initialiseBody_frame s
  · exact updateFrameBody_frame s
  · exact displayFrameBody_frame s
  · exact sleepBody_frame s

@[simp] theorem BusyClearsAfter_afterBusses (w n : Nat) (e : Env) :
    BusyClearsAfter w (e.afterBusses n) ↔ BusyClearsAfter w e := by simp [BusyClearsAfter]

@[simp] theorem BusyHighFor_afterBusses (m n : Nat) (e : Env) : BusyHighFor m (e.afterBusses n) ↔ BusyHighFor m e := by
  simp [BusyHighFor]

theorem initialiseBody_end (s : State) : OpEnd .initialise s (initialiseBody s) := by
  rw [initialiseBody_eq]
  dsimp only
  have hwin := sendTable_windows s.cfg.initTable
    ((resetPulse (pinWrite .cs .high (s.withPhase .uninitialized))).withTblIdx (some 0))
  have hc : (resetPulse (pinWrite .cs .high (s.withPhase .uninitialized))).cfg = s.cfg := by simp
  rw [hc]
  generalize hp : sendTable s.cfg.initTable
    ((resetPulse (pinWrite .cs .high (s.withPhase .uninitialized))).withTblIdx (some 0)) = p at hwin
  have hcfg : p.2.cfg = s.cfg := by rw [← hp]; simp
  have hlast : p.2.lastBusy = s.lastBusy := by rw [← hp]; simp
  have hpan : p.2.panel = { s.panel with ram := .undefined } := by rw [← hp]; simp
  cases hwin with
  | faulted j k v hv hbus hk hr htrace henv hcs hdc =>
    rw [hr]
    exact .faulted j k v hv (by simpa using hbus) (by simpa using hk) (by simp [htrace, opPrelude, bringUpTrace, opWindows]) rfl rfl
      (by simpa using hdc) (by simpa using hlast) (by simp [henv]) (by simp [hpan, panelFailed])
  | sent hr hbus htrace henv hcs hnil hdc =>
    rw [hr]
    dsimp only
    rcases busyWait_cases p.2 with ⟨w, hw, h1, h2, h3, h4⟩ | ⟨h1, h2, h3, h4⟩
    · rw [h1]
      refine .completed w (by simpa [opWindows] using hbus) (fun _ => ⟨hcfg ▸ hw, ?_⟩) ?_ rfl rfl ?_ ?_ (by simpa using h4)
        (by simp) (by simp [hpan, panelOk])
      · simpa [henv] using h2
      · simp [h3, htrace, hcfg, opPrelude, bringUpTrace, opWindows]
      · intro v hv; simpa using hdc v hv
      · intro hv; simpa using (hnil hv).2
    · rw [h1]
      refine .timedOut (by simp) (by simpa [opWindows] using hbus) ?_ ?_ rfl rfl ?_ ?_ (by simpa using h4)
        (by simp [hpan, panelFailed])
      · simpa [henv, hcfg] using h2
      · simp [h3, htrace, hcfg, opPrelude, bringUpTrace, opWindows]
      · intro v hv; simpa using hdc v hv
      · intro hv; simpa using (hnil hv).2

theorem displayFrameBody_end (s : State) : OpEnd .displayFrame s (displayFrameBody s) := by
  rw [displayFrameBody_eq]
  dsimp only
  have hwin := sendCommand_windows s.cfg.cmdRefresh s
  generalize hp : sendCommand s.cfg.cmdRefresh s = p at hwin
  have hcfg : p.2.cfg = s.cfg := by rw [← hp]; simp
  have hlast : p.2.lastBusy = s.lastBusy := by rw [← hp]; simp
  have hpan : p.2.panel = s.panel := by rw [← hp]; simp
  cases hwin with
  | faulted j k v hv hbus hk hr htrace henv hcs hdc =>
    rw [hr]
    exact .faulted j k v hv hbus hk (by simp [htrace, opPrelude, opWindows]) rfl rfl
      (by simpa using hdc) (by simpa using hlast) (by simp [henv]) (by simp [hpan, panelFailed])
  | sent hr hbus htrace henv hcs hnil hdc =>
    rw [hr]
    dsimp only
    rcases busyWait_cases (p.2.withPhase .refreshing) with ⟨w, hw, h1, h2, h3, h4⟩ | ⟨h1, h2, h3, h4⟩
    · rw [h1]
      refine .completed w hbus (fun _ => ⟨by simpa [hcfg] using hw, ?_⟩) ?_ rfl rfl ?_ (by simp [opWindows])
        (by simpa using h4) (by simp) (by simp [hpan, panelOk])
      · simpa [henv] using h2
      · simp [h3, htrace, hcfg, opPrelude, opWindows]
      · intro v hv; simpa using hdc v hv
    · rw [h1]
      refine .timedOut (by simp) hbus ?_ ?_ rfl rfl ?_ (by simp [opWindows]) (by simpa using h4) (by simp [hpan, panelFailed])
      · simpa [henv, hcfg] using h2
      · simp [h3, htrace, hcfg, opPrelude, opWindows]
      · intro v hv; simpa using hdc v hv

theorem sleepBody_end (s : State) : OpEnd .sleep s (sleepBody s) := by
  rw [sleepBody_eq]
  dsimp only
  have hc := sendCommand_windows s.cfg.cmdSleep s
  generalize hp : sendCommand s.cfg.cmdSleep s = p at hc
  have hcfg : p.2.cfg = s.cfg := by rw [← hp]; simp
  have hlast : p.2.lastBusy = s.lastBusy := by rw [← hp]; simp
  have hpan : p.2.panel = s.panel := by rw [← hp]; simp
  cases hr : p.1 with
  | fault k₀ =>
    dsimp only
    cases hc.stop (dataWindows s.cfg.sleepParams) (by simp [hr]) with
    | sent hr' => rw [hr] at hr'; cases hr'
    | faulted j k v hv hbus hk hr' htrace henv hcs hdc =>
      exact .faulted j k v hv hbus hk (by simp [htrace, opPrelude, opWindows]) rfl rfl
        (by simpa using hdc) (by simpa using hlast) (by simp [henv]) (by simp [hpan, panelFailed])
  | ok =>
    dsimp only
    rw [hcfg]
    have hd := hc.append hr (sendData_windows s.cfg.sleepParams p.2)
    generalize hq : sendData s.cfg.sleepParams p.2 = q at hd
    have hqlast : q.2.lastBusy = s.lastBusy := by rw [← hq]; simp [hlast]
    have hqpan : q.2.panel = s.panel := by rw [← hq]; simp [hpan]
    cases hd with
    | faulted j k v hv hbus hk hr' htrace henv hcs hdc =>
      rw [hr']
      exact .faulted j k v hv hbus hk (by simp [htrace, opPrelude, opWindows]) rfl rfl
        (by simpa using hdc) (by simpa using hqlast) (by simp [henv]) (by simp [hqpan, panelFailed])
    | sent hr' hbus htrace henv hcs hnil hdc =>
      rw [hr']
      refine .completed 0 hbus (by simp) ?_ rfl rfl ?_ (by simp [opWindows]) (by simpa using hqlast) ?_ (by simp [hqpan, panelOk])
      · simp [htrace, opPrelude, opWindows]
      · intro v hv; simpa using hdc v hv
      · simp [henv]

theorem updateFrameBody_end (s : State) : OpEnd .updateFrame s (updateFrameBody s) := by
  rw [updateFrameBody_eq]
  dsimp only
  have hc := sendCommand_windows s.cfg.cmdWriteRam (s.withPhase .transferringFrame)
  generalize hp : sendCommand (s.withPhase .transferringFrame).cfg.cmdWriteRam (s.withPhase .transferringFrame) = p
  have hp' : sendCommand s.cfg.cmdWriteRam (s.withPhase .transferringFrame) = p := hp
  rw [hp'] at hc
  have hcfg : p.2.cfg = s.cfg := by rw [← hp]; simp
  have hlast : p.2.lastBusy = s.lastBusy := by rw [← hp]; simp
  have hpan : p.2.panel = s.panel := by rw [← hp]; simp
  have hframe : frame p.2 = frame s := frame_congr (by rw [← hp]; simp) (by rw [← hp]; simp) hcfg
  have hc := hc.of_eq (s' := s) rfl rfl rfl rfl
  cases hr : p.1 with
  | fault k₀ =>
    dsimp only
    cases hc.stop (dataWindows (frame s)) (by simp [hr]) with
    | sent hr' => rw [hr] at hr'; cases hr'
    | faulted j k v hv hbus hk hr' htrace henv hcs hdc =>
      exact .faulted j k v hv hbus hk (by simp [htrace, opPrelude, opWindows]) rfl rfl
        (by simpa using hdc) (by simpa using hlast) (by simp [henv]) (by simp [hpan, panelFailed])
  | ok =>
    dsimp only
    rw [hframe]
    have hd := hc.append hr (sendData_windows (frame s) p.2)
    generalize hq : sendData (frame s) p.2 = q at hd
    have hqcfg : q.2.cfg = s.cfg := by rw [← hq]; simp [hcfg]
    have hqlast : q.2.lastBusy = s.lastBusy := by rw [← hq]; simp [hlast]
    have hqpan : q.2.panel = s.panel := by rw [← hq]; simp [hpan]
    cases hd with
    | faulted j k v hv hbus hk hr' htrace henv hcs hdc =>
      rw [hr']
      exact .faulted j k v hv hbus hk (by simp [htrace, opPrelude, opWindows]) rfl rfl
        (by simpa using hdc) (by simpa using hqlast) (by simp [henv]) (by simp [hqpan, panelFailed])
    | sent hr' hbus htrace henv hcs hnil hdc =>
      rw [hr']
      dsimp only
      rcases busyWait_cases (setPanelRam (.bytes (frame s)) q.2) with ⟨w, hw, h1, h2, h3, h4⟩ | ⟨h1, h2, h3, h4⟩
      · rw [h1]
        refine .completed w hbus (fun _ => ⟨by simpa [hqcfg] using hw, ?_⟩) ?_ rfl rfl ?_ (by simp [opWindows])
          (by simpa using h4) (by simp) (by simp [hqpan, panelOk])
        · simpa [henv] using h2
        · simp [h3, htrace, hqcfg, opPrelude, opWindows]
        · intro v hv; simpa using hdc v hv
      · rw [h1]
        refine .timedOut (by simp) hbus ?_ ?_ rfl rfl ?_ (by simp [opWindows]) (by simpa using h4) (by simp [hqpan, panelFailed])
        · simpa [henv, hqcfg] using h2
        · simp [h3, htrace, hqcfg, opPrelude, opWindows]
        · intro v hv; simpa using hdc v hv

/-- The windows and the results of an operation do not depend on `active`. -/
theorem OpEnd.of_active {i : Instr} {s t : State} {b : Bool} (h : OpEnd i (s.withActive b) t) : OpEnd i s t := by
  have hw : opWindows (s.withActive b) i = opWindows s i := by cases i <;> rfl
  have ho : panelOk (s.withActive b) i = panelOk s i := by cases i <;> rfl
  have hf : panelFailed (s.withActive b) i = panelFailed s i := by cases i <;> rfl
  cases h with
  | completed w h1 h2 h3 h4 h5 h6 h7 h8 h9 h10 =>
    rw [hw] at h1 h3 h6 h7; rw [ho] at h10
    exact .completed w h1 h2 h3 h4 h5 h6 h7 h8 h9 h10
  | faulted j k v h1 h2 h3 h4 h5 h6 h7 h8 h9 h10 =>
    rw [hw] at h1 h4; rw [hf] at h10
    exact .faulted j k v h1 h2 h3 h4 h5 h6 h7 h8 h9 h10
  | timedOut h0 h1 h2 h3 h4 h5 h6 h7 h8 h9 =>
    rw [hw] at h1 h3 h6 h7; rw [hf] at h9
    exact .timedOut h0 h1 h2 h3 h4 h5 h6 h7 h8 h9

/-- Everything an accepted operation can do (R69, R78, R80, R85, R90, R95). -/
theorem body_end (i : Instr) (s : State) : OpEnd i s (bodyOf i s) := by
  cases i
  · exact initialiseBody_end s
  · exact updateFrameBody_end s
  · exact displayFrameBody_end s
  · exact sleepBody_end s

/-- Everything `exec` can do: a refusal, or an accepted operation's end. -/
theorem exec_cases {i : Instr} {s t : State} (h : exec i s = .next t) :
    (guardPasses i s.phase = false ∧ t = refuse (s.withActive true))
    ∨ (guardPasses i s.phase = true ∧ OpEnd i s t ∧ OpFrame i s t) := by
  cases hg : guardPasses i s.phase with
  | false =>
    rw [exec_refuses hg] at h
    cases h
    exact .inl ⟨rfl, rfl⟩
  | true =>
    rw [exec_runs hg] at h
    cases h
    refine .inr ⟨rfl, (body_end i _).of_active, ?_⟩
    have f := body_frame i (s.withActive true)
    exact ⟨f.fb, f.fbEpoch, f.cfg, f.host, f.loadErr, f.idle, f.done, f.cs, f.rst⟩

end Sys2Proof.Machine
end

