-- ==== Sys2Proof/Laws/Answers.lean ====
section
/-! SUPPORT. Laws/Answers.lean: an operation consumes the environment's answers in order, and only by asking (R7): how many bus
answers and how many BUSY levels at most (`exec_consumes`), and that a premise about the coming answers still holds of the later
ones. -/

namespace Sys2Proof.Machine

/-- `e'` is what is left of `e` once `m` bus answers and `n` BUSY levels have been consumed. -/
def Env.Consumed (e : Env) (m n : Nat) (e' : Env) : Prop :=
  ∀ j, e'.busAt j = e.busAt (m + j) ∧ e'.busyAt j = e.busyAt (n + j)

theorem Env.Consumed.refl (e : Env) : e.Consumed 0 0 e := fun j => by simp

theorem Env.Consumed.trans {e₁ e₂ e₃ : Env} {m n m' n' : Nat} (h : e₁.Consumed m n e₂) (h' : e₂.Consumed m' n' e₃) :
    e₁.Consumed (m + m') (n + n') e₃ := fun j => by simp [(h' j).1, (h' j).2, h _, Nat.add_assoc]

theorem Env.consumed_afterBusses (e : Env) (m : Nat) : e.Consumed m 0 (e.afterBusses m) := fun j => by simp

theorem Env.consumed_afterBusy (e : Env) : e.Consumed 0 1 e.afterBusy := fun j => by simp [Nat.add_comm]

theorem BusOkFor.consumed {k m n : Nat} {e e' : Env} (h : BusOkFor (m + k) e) (hc : e.Consumed m n e') : BusOkFor k e' :=
  fun j hj => (hc j).1.trans (h _ (by omega))

theorem ResponsiveFor.consumed {k m n : Nat} {c : Cfg} {e e' : Env} (h : ResponsiveFor (n + k) c e) (hc : e.Consumed m n e') :
    ResponsiveFor k c e' := by
  intro j hj
  obtain ⟨w, hw, hb⟩ := h (n + j) (by omega)
  exact ⟨w, hw, by rw [(hc _).2, ← Nat.add_assoc]; exact hb⟩

theorem BusOkFor.mono {k k' : Nat} {e : Env} (h : BusOkFor k e) (hk : k' ≤ k) : BusOkFor k' e := fun j hj => h j (by omega)

theorem ResponsiveFor.mono {k k' : Nat} {c : Cfg} {e : Env} (h : ResponsiveFor k c e) (hk : k' ≤ k) : ResponsiveFor k' c e :=
  fun j hj => h j (by omega)

theorem WindowsEnd.consumed {ws : List (WireKind × List Byte)} {s t : State} {r : BusOutcome} (h : WindowsEnd ws s r t) :
    ∃ m ≤ ws.length, s.env.Consumed m 0 t.env := by
  cases h with
  | sent _ _ _ henv => exact ⟨_, le_refl _, henv ▸ Env.consumed_afterBusses _ _⟩
  | faulted j _ _ hw _ _ _ _ henv =>
    exact ⟨j + 1, (List.getElem?_eq_some_iff.1 hw).1, henv ▸ Env.consumed_afterBusses _ _⟩

theorem busyWaitLoop_consumed (k : Nat) (s : State) : ∃ n ≤ k + 1, s.env.Consumed 0 n (busyWaitLoop k s).2.env := by
  have one : s.env.Consumed 0 1 (sampleBusy s).2.env := by simpa using Env.consumed_afterBusy s.env
  induction k generalizing s with
  | zero =>
    cases h : s.env.busyAt 0
    · exact ⟨1, by omega, by rw [busyWaitLoop_low h]; exact one⟩
    · exact ⟨1, by omega, by rw [busyWaitLoop_high_zero h]; exact one⟩
  | succ k ih =>
    cases h : s.env.busyAt 0
    · exact ⟨1, by omega, by rw [busyWaitLoop_low h]; exact one⟩
    · rw [busyWaitLoop_high_succ h]
      obtain ⟨n, hn, hc⟩ := ih (countPoll (delay s.cfg.tPollUs (sampleBusy s).2))
        (by simpa using Env.consumed_afterBusy s.env.afterBusy)
      exact ⟨1 + n, by omega, one.trans hc⟩

theorem busyWait_consumed (s : State) : ∃ n ≤ s.cfg.nPollMax + 1, s.env.Consumed 0 n (busyWait s).2.env :=
  busyWaitLoop_consumed _ (s.withPollCnt (some 0))

/-- What an operation leaves of the environment's answers. -/
theorem body_consumed (i : Instr) (s : State) :
    ∃ m ≤ (opWindows s i).length, ∃ n ≤ s.cfg.nPollMax + 1, s.env.Consumed m n (bodyOf i s).env := by
  -- a body is some windows, and perhaps a busy-wait after them
  have key (t u : State) (m k : Nat) (hm : m ≤ k) (hc : s.env.Consumed m 0 t.env) (hcfg : t.cfg = s.cfg)
      (hu : u.env = t.env ∨ u.env = (busyWait t).2.env) :
      ∃ m ≤ k, ∃ n ≤ s.cfg.nPollMax + 1, s.env.Consumed m n u.env := by
    rcases hu with hu | hu
    · exact ⟨m, hm, 0, by omega, hu ▸ hc⟩
    · obtain ⟨n, hn, hw⟩ := busyWait_consumed t
      exact ⟨m, hm, n, hcfg ▸ hn, by simpa [hu] using hc.trans hw⟩
  cases i <;> simp only [bodyOf, opWindows]
  · rw [initialiseBody_eq]
    dsimp only
    obtain ⟨m, hm, hc⟩ := (sendTable_windows (resetPulse (pinWrite .cs .high (s.withPhase .uninitialized))).cfg.initTable
      ((resetPulse (pinWrite .cs .high (s.withPhase .uninitialized))).withTblIdx (some 0))).consumed
    refine key _ _ m _ (by simpa using hm) (by simpa using hc) (by simp) ?_
    split
    · exact .inl rfl
    · split <;> exact .inr rfl
  · rw [updateFrameBody_eq]
    dsimp only
    obtain ⟨m, hm, hc⟩ := (sendCommand_windows s.cfg.cmdWriteRam (s.withPhase .transferringFrame)).consumed
    obtain ⟨m', hm', hc'⟩ :=
      (sendData_windows (frame (sendCommand s.cfg.cmdWriteRam (s.withPhase .transferringFrame)).2)
        (sendCommand s.cfg.cmdWriteRam (s.withPhase .transferringFrame)).2).consumed
    have hf : frame (sendCommand s.cfg.cmdWriteRam (s.withPhase .transferringFrame)).2 = frame s :=
      frame_congr (by simp) (by simp) (by simp)
    rw [hf] at hm'
    simp only [List.length_cons, List.length_nil] at hm ⊢
    split
    · exact key _ _ m _ (by omega) hc (by simp) (.inl rfl)
    · split
      · exact key _ _ (m + m') _ (by omega) (hc.trans hc') (by simp) (.inl rfl)
      · refine key (setPanelRam (.bytes (frame (sendCommand s.cfg.cmdWriteRam (s.withPhase .transferringFrame)).2))
          (sendData (frame (sendCommand s.cfg.cmdWriteRam (s.withPhase .transferringFrame)).2)
            (sendCommand s.cfg.cmdWriteRam (s.withPhase .transferringFrame)).2).2) _ (m + m') _ (by omega) (hc.trans hc')
          (by simp) ?_
        split <;> exact .inr rfl
  · rw [displayFrameBody_eq]
    dsimp only
    obtain ⟨m, hm, hc⟩ := (sendCommand_windows s.cfg.cmdRefresh s).consumed
    split
    · exact key _ _ m _ hm hc (by simp) (.inl rfl)
    · refine key ((sendCommand s.cfg.cmdRefresh s).2.withPhase .refreshing) _ m _ hm hc (by simp) ?_
      split <;> exact .inr rfl
  · rw [sleepBody_eq]
    dsimp only
    obtain ⟨m, hm, hc⟩ := (sendCommand_windows s.cfg.cmdSleep s).consumed
    obtain ⟨m', hm', hc'⟩ := (sendData_windows (sendCommand s.cfg.cmdSleep s).2.cfg.sleepParams (sendCommand s.cfg.cmdSleep s).2).consumed
    simp only [sendCommand_cfg] at hm'
    simp only [List.length_cons, List.length_nil] at hm ⊢
    split
    · exact key _ _ m _ (by omega) hc (by simp) (.inl rfl)
    · split <;> exact key (sendData _ _).2 _ (m + m') _ (by omega) (hc.trans hc') (by simp) (.inl rfl)

/-- An operation consumes at most its bursts' answers and `N_POLL_MAX + 1` BUSY levels. -/
theorem exec_consumes {i : Instr} {s t : State} (h : exec i s = .next t) :
    ∃ m ≤ (opWindows s i).length, ∃ n ≤ s.cfg.nPollMax + 1, s.env.Consumed m n t.env := by
  cases hg : guardPasses i s.phase with
  | false => rw [exec_refuses hg] at h; cases h; exact ⟨0, by omega, 0, by omega, Env.Consumed.refl _⟩
  | true =>
    rw [exec_runs hg] at h
    cases h
    have hw : (opWindows (s.withActive true) i).length = (opWindows s i).length := by
      have hf : frame (s.withActive true) = frame s := frame_congr rfl rfl rfl
      cases i <;> simp [opWindows, hf]
    obtain ⟨m, hm, n, hn, hc⟩ := body_consumed i (s.withActive true)
    exact ⟨m, hw ▸ hm, n, hn, hc⟩

end Sys2Proof.Machine
end

