-- ==== Sys2Proof/Laws/HostPort.lean ====
section
/-! SUPPORT. Laws/HostPort.lean: which of the host's actions a step takes (R50, R121), one lemma per case: an idle block takes the
oldest one, a running block holds requests off and takes the oldest other one. -/

namespace Sys2Proof.Machine

@[simp] theorem takeFree_nil : takeFree [] = (none, []) := rfl

theorem takeFree_cons_request {a : HostAction} (h : a.isRequest = true) (l : List HostAction) :
    takeFree (a :: l) = ((takeFree l).1, a :: (takeFree l).2) := by simp [takeFree, h]

theorem takeFree_cons_free {a : HostAction} (h : a.isRequest = false) (l : List HostAction) : takeFree (a :: l) = (some a, l) := by
  simp [takeFree, h]

/-- Requests at the head of the list stay where they are. -/
theorem takeFree_append {held : List HostAction} (h : ∀ a ∈ held, a.isRequest = true) (l : List HostAction) :
    takeFree (held ++ l) = ((takeFree l).1, held ++ (takeFree l).2) := by
  induction held with
  | nil => rfl
  | cons a held ih =>
    rw [List.cons_append, takeFree_cons_request (h a (by simp)), ih fun b hb => h b (by simp [hb])]
    rfl

/-- What a running block takes is no request. -/
theorem takeFree_isRequest {l : List HostAction} {a : HostAction} (h : (takeFree l).1 = some a) : a.isRequest = false := by
  induction l with
  | nil => cases h
  | cons b l ih =>
    cases hb : b.isRequest
    · rw [takeFree_cons_free hb] at h
      cases h
      exact hb
    · rw [takeFree_cons_request hb] at h
      exact ih h

/-- A request is taken by an idle block only, and then it is the oldest action. -/
theorem takeAction_request {b : Bool} {l rest : List HostAction} {a : HostAction} (h : takeAction b l = (some a, rest))
    (ha : a.isRequest = true) : b = false ∧ l = a :: rest := by
  cases b
  · cases l with
    | nil => cases h
    | cons c l => cases h; exact ⟨rfl, rfl⟩
  · have := takeFree_isRequest (congrArg Prod.fst h)
    rw [ha] at this
    cases this

/-- With nothing from the host, time passes. -/
theorem step_nil {s : State} (h : s.host = []) : step s = advance (s.withDone false) := by
  unfold step takeAction
  rw [h]
  cases s.active <;> rfl

/-- An idle block takes the host's oldest action. -/
theorem step_idle {s : State} {a : HostAction} {rest : List HostAction} (ha : s.active = false) (h : s.host = a :: rest) :
    step s = hostStep a ((s.withDone false).withHost rest) := by
  unfold step takeAction
  rw [h, ha]
  rfl

/-- The oldest action that is no request, with only requests before it that a running block holds off, is taken at once. -/
theorem step_free {s : State} {a : HostAction} {held rest : List HostAction} (h : s.host = held ++ a :: rest)
    (hheld : ∀ b ∈ held, b.isRequest = true) (hidle : s.active = false → held = []) (ha : a.isRequest = false) :
    step s = hostStep a ((s.withDone false).withHost (held ++ rest)) := by
  cases hact : s.active
  · rw [hidle hact] at h ⊢
    exact step_idle hact h
  · unfold step takeAction
    rw [h, hact, takeFree_append hheld, takeFree_cons_free ha]
    rfl

/-- With a quiet host a running operation advances, and the requests stay (R50, R38). -/
theorem step_running {s : State} {q : Seq} (hact : s.active = true) (hseq : s.seq = some q) (hquiet : QuietHost s) :
    step s = .next (microStep q ((s.withDone false).withHost (takeFree s.host).2)) := by
  have hadv (l : List HostAction) :
      advance ((s.withDone false).withHost l) = .next (microStep q ((s.withDone false).withHost l)) := by
    simp only [advance, State.withHost_active, State.withDone_active, hact, if_true, State.withHost_seq, State.withDone_seq, hseq]
  have hnone : (takeFree s.host).1 = none → (takeFree s.host).2 = s.host := by
    induction s.host with
    | nil => exact fun _ => rfl
    | cons b l ih =>
      cases hb : b.isRequest
      · rw [takeFree_cons_free hb]; exact nofun
      · rw [takeFree_cons_request hb]; exact fun h => congrArg (b :: ·) (ih h)
  have hfree := fun a => takeFree_isRequest (l := s.host) (a := a)
  obtain ⟨h1, h2⟩ := hquiet hact
  unfold step takeAction
  rw [hact, if_pos rfl]
  generalize takeFree s.host = x at *
  obtain ⟨_ | a, rest⟩ := x
  · rw [show rest = s.host from hnone rfl]
    exact hadv s.host
  · cases a
    case idle => exact hadv rest
    case blockReset => exact absurd rfl h1
    case powerCycle => exact absurd rfl h2
    all_goals exact nomatch hfree _ rfl

end Sys2Proof.Machine
end

