-- ==== Sys2Proof/Laws/PerInstr.lean ====
section
/-! SUPPORT. Laws/PerInstr.lean: laws stated of every operation as syntax, one lemma per constructor. -/

namespace Sys2Proof.Laws.Spelling

/-- An operation's word decodes to it in the table's numbering, and its mnemonic names it in a listing (R51, R59). -/
def Statement (i : Instr) : Prop := decodeTableWord 8 (encode i).toNat = some i ∧ ofMnemonic (mnemonicOf i) = some i

theorem initialise : Statement .initialise := by unfold Statement; decide

theorem updateFrame : Statement .updateFrame := by unfold Statement; decide

theorem displayFrame : Statement .displayFrame := by unfold Statement; decide

theorem sleep : Statement .sleep := by unfold Statement; decide

end Sys2Proof.Laws.Spelling
end

