-- ==== Sys2Proof/Laws/Sequencer.lean ====
section
/-! SUPPORT. Laws/Sequencer.lean: the small step of R6: what a position change leaves alone, what every small step leaves alone
(`microStep_outside`), the two ways a small step ends (`microStep_control`): the same operation at another position, or an
idle block with its done pulse up; and one step of a run (`run_next`). -/

namespace Sys2Proof.Machine

/-- One step of a run. -/
theorem run_next {n : Nat} {s t : State} (h : step s = .next t) :
    Host.Core.run Sys2Proof.core (n + 1) s = Host.Core.run Sys2Proof.core n t := by
  have h' : Sys2Proof.core.step s = .next t := h
  simp only [Host.Core.run, h']

section goto
variable (q : Seq) (p : Pos) (s : State)
@[simp] theorem goto_phase : (goto q p s).phase = s.phase := rfl
@[simp] theorem goto_active : (goto q p s).active = s.active := rfl
@[simp] theorem goto_seq : (goto q p s).seq = some { q with pos := p } := rfl
@[simp] theorem goto_result : (goto q p s).result = s.result := rfl
@[simp] theorem goto_done : (goto q p s).done = s.done := rfl
@[simp] theorem goto_cs : (goto q p s).cs = s.cs := rfl
@[simp] theorem goto_dc : (goto q p s).dc = s.dc := rfl
@[simp] theorem goto_rst : (goto q p s).rst = s.rst := rfl
@[simp] theorem goto_lastBusy : (goto q p s).lastBusy = s.lastBusy := rfl
@[simp] theorem goto_tblIdx : (goto q p s).tblIdx = s.tblIdx := rfl
@[simp] theorem goto_byteIdx : (goto q p s).byteIdx = s.byteIdx := rfl
@[simp] theorem goto_pollCnt : (goto q p s).pollCnt = s.pollCnt := rfl
@[simp] theorem goto_fb : (goto q p s).fb = s.fb := rfl
@[simp] theorem goto_panel : (goto q p s).panel = s.panel := rfl
@[simp] theorem goto_cfg : (goto q p s).cfg = s.cfg := rfl
@[simp] theorem goto_trace : (goto q p s).trace = s.trace := rfl
@[simp] theorem goto_env : (goto q p s).env = s.env := rfl
@[simp] theorem goto_fbEpoch : (goto q p s).fbEpoch = s.fbEpoch := rfl
@[simp] theorem goto_host : (goto q p s).host = s.host := rfl
@[simp] theorem goto_loadErr : (goto q p s).loadErr = s.loadErr := rfl
end goto

section startPoll
variable (q : Seq) (s : State)
@[simp] theorem startPoll_phase : (startPoll q s).phase = s.phase := rfl
@[simp] theorem startPoll_active : (startPoll q s).active = s.active := rfl
@[simp] theorem startPoll_seq : (startPoll q s).seq = some { q with pos := .sample } := rfl
@[simp] theorem startPoll_result : (startPoll q s).result = s.result := rfl
@[simp] theorem startPoll_done : (startPoll q s).done = s.done := rfl
@[simp] theorem startPoll_cs : (startPoll q s).cs = s.cs := rfl
@[simp] theorem startPoll_dc : (startPoll q s).dc = s.dc := rfl
@[simp] theorem startPoll_rst : (startPoll q s).rst = s.rst := rfl
@[simp] theorem startPoll_lastBusy : (startPoll q s).lastBusy = s.lastBusy := rfl
@[simp] theorem startPoll_tblIdx : (startPoll q s).tblIdx = s.tblIdx := rfl
@[simp] theorem startPoll_byteIdx : (startPoll q s).byteIdx = s.byteIdx := rfl
@[simp] theorem startPoll_pollCnt : (startPoll q s).pollCnt = some 0 := rfl
@[simp] theorem startPoll_fb : (startPoll q s).fb = s.fb := rfl
@[simp] theorem startPoll_panel : (startPoll q s).panel = s.panel := rfl
@[simp] theorem startPoll_cfg : (startPoll q s).cfg = s.cfg := rfl
@[simp] theorem startPoll_trace : (startPoll q s).trace = s.trace := rfl
@[simp] theorem startPoll_env : (startPoll q s).env = s.env := rfl
@[simp] theorem startPoll_fbEpoch : (startPoll q s).fbEpoch = s.fbEpoch := rfl
@[simp] theorem startPoll_host : (startPoll q s).host = s.host := rfl
@[simp] theorem startPoll_loadErr : (startPoll q s).loadErr = s.loadErr := rfl
end startPoll

/-- What no small step writes: what is outside the block, and the framebuffer (R42, R19). -/
structure Outside (s t : State) : Prop where
  fb      : t.fb = s.fb
  fbEpoch : t.fbEpoch = s.fbEpoch
  cfg     : t.cfg = s.cfg
  host    : t.host = s.host
  loadErr : t.loadErr = s.loadErr

theorem enterEntry_outside (q : Seq) (s : State) : Outside s (enterEntry q s) := by
  unfold enterEntry; split <;> constructor <;> rfl

theorem dataSent_outside (q : Seq) (s : State) : Outside s (dataSent q s) := by
  unfold dataSent
  split
  · obtain ⟨a, b, c, d, e⟩ := enterEntry_outside q (countEntry s); constructor <;> simp [*]
  all_goals constructor <;> rfl

theorem commandSent_outside (q : Seq) (s : State) : Outside s (commandSent q s) := by
  have h : Outside s (startData q s) := by
    unfold startData; split
    · exact dataSent_outside q s
    · constructor <;> rfl
  unfold commandSent
  split <;> first | exact h | (constructor <;> rfl)

theorem burstFailed_outside (op : Instr) (s : State) : Outside s (burstFailed op s) := by cases op <;> constructor <;> rfl

theorem waitPassed_outside (op : Instr) (s : State) : Outside s (waitPassed op s) := by cases op <;> constructor <;> rfl

theorem waitFailed_outside (op : Instr) (s : State) : Outside s (waitFailed op s) := by cases op <;> constructor <;> rfl

theorem Outside.trans {s t u : State} (h : Outside s t) (h' : Outside t u) : Outside s u := by
  obtain ⟨a, b, c, d, e⟩ := h
  obtain ⟨a', b', c', d', e'⟩ := h'
  constructor <;> simp [*]

/-- No small step writes what is outside the block, or the framebuffer. -/
theorem microStep_outside (q : Seq) (s : State) : Outside s (microStep q s) := by
  have hp (l : Line) (v : Level) : Outside s (pinWrite l v s) := by constructor <;> simp
  unfold microStep
  split
  · constructor <;> simp
  · constructor <;> simp
  · constructor <;> simp
  · constructor <;> simp
  · exact Outside.trans (t := (delay s.cfg.tResetHighUs s).withTblIdx (some 0)) (by constructor <;> simp) (enterEntry_outside q _)
  · unfold windowStep
    split
    · constructor <;> simp
    · constructor <;> simp
    · unfold burstStep
      dsimp only
      split <;> constructor <;> simp
    · dsimp only
      split
      · exact (hp _ _).trans (burstFailed_outside _ _)
      · exact (hp _ _).trans (commandSent_outside _ _)
      · exact (hp _ _).trans (dataSent_outside _ _)
  · have hs : Outside s (sampleBusy s).2 := by constructor <;> simp
    unfold sampleStep
    split <;> rename_i t h <;> (have ht : t = (sampleBusy s).2 := by rw [h]) <;> subst ht
    · exact hs.trans (waitPassed_outside _ _)
    · split
      · constructor <;> simp
      · exact hs.trans (waitFailed_outside _ _)
  · constructor <;> simp

/-- The control part of a small step: the operation runs on at a position of its own, or it has ended. -/
inductive Control (q : Seq) (s t : State) : Prop where
  | runs (p : Pos) (hseq : t.seq = some { q with pos := p }) (hactive : t.active = s.active) (hdone : t.done = s.done)
      (hresult : t.result = s.result)
  | ended (hidle : Idle t) (hdone : t.done = true)
      (hresult : t.result ∈ legalResults ∧ t.result ≠ ⟨.illegalState, .none⟩)

theorem enterEntry_control (q : Seq) (s : State) : Control q s (enterEntry q s) := by
  unfold enterEntry; split <;> exact .runs _ rfl rfl rfl rfl

theorem dataSent_control (q : Seq) (s : State) : Control q s (dataSent q s) := by
  unfold dataSent
  split
  · cases enterEntry_control q (countEntry s) with
    | runs p a b c d => exact .runs p a b c d
    | ended a b c => exact .ended a b c
  · exact .runs _ rfl rfl rfl rfl
  · exact .runs _ rfl rfl rfl rfl
  · exact .ended ⟨rfl, rfl, rfl, rfl, rfl⟩ rfl (by simp [legalResults])

theorem commandSent_control (q : Seq) (s : State) : Control q s (commandSent q s) := by
  have h : Control q s (startData q s) := by
    unfold startData; split
    · exact dataSent_control q s
    · exact .runs _ rfl rfl rfl rfl
  unfold commandSent
  split <;> first | exact h | exact .runs _ rfl rfl rfl rfl

theorem burstFailed_control (q : Seq) (op : Instr) (s : State) : Control q s (burstFailed op s) := by
  cases op <;> exact .ended ⟨rfl, rfl, rfl, rfl, rfl⟩ rfl (by simp [burstFailed, legalResults])

theorem waitPassed_control (q : Seq) (op : Instr) (s : State) : Control q s (waitPassed op s) := by
  cases op <;> exact .ended ⟨rfl, rfl, rfl, rfl, rfl⟩ rfl (by simp [waitPassed, legalResults])

theorem waitFailed_control (q : Seq) (op : Instr) (s : State) : Control q s (waitFailed op s) := by
  cases op <;> exact .ended ⟨rfl, rfl, rfl, rfl, rfl⟩ rfl (by simp [waitFailed, legalResults])

theorem Control.of_eq {q : Seq} {s s' t : State} (h : Control q s' t) (ha : s'.active = s.active) (hd : s'.done = s.done)
    (hr : s'.result = s.result) : Control q s t := by
  cases h with
  | runs p a b c d => exact .runs p a (b.trans ha) (c.trans hd) (d.trans hr)
  | ended a b c => exact .ended a b c

/-- The two ways a small step ends. -/
theorem microStep_control {q : Seq} {s : State} (hq : s.seq = some q) : Control q s (microStep q s) := by
  unfold microStep
  split
  · exact .runs _ rfl (by simp) (by simp) (by simp)
  · exact .runs _ rfl (by simp) (by simp) (by simp)
  · exact .runs _ rfl (by simp) (by simp) (by simp)
  · exact .runs _ rfl (by simp) (by simp) (by simp)
  · exact (enterEntry_control q _).of_eq (by simp) (by simp) (by simp)
  · unfold windowStep
    split
    · exact .runs _ rfl (by simp) (by simp) (by simp)
    · exact .runs _ rfl (by simp) (by simp) (by simp)
    · unfold burstStep
      dsimp only
      split
      · exact .runs q.pos (by simp [hq]) (by simp) (by simp) (by simp)
      · exact .runs _ rfl (by simp) (by simp) (by simp)
    · dsimp only
      split
      · exact (burstFailed_control q _ _).of_eq (by simp) (by simp) (by simp)
      · exact (commandSent_control q _).of_eq (by simp) (by simp) (by simp)
      · exact (dataSent_control q _).of_eq (by simp) (by simp) (by simp)
  · unfold sampleStep
    split <;> rename_i t h <;> (have ht : t = (sampleBusy s).2 := by rw [h]) <;> subst ht
    · exact (waitPassed_control q _ _).of_eq (by simp) (by simp) (by simp)
    · split
      · exact .runs .pollDelay (by simp) (by simp) (by simp) (by simp)
      · exact (waitFailed_control q _ _).of_eq (by simp) (by simp) (by simp)
  · exact .runs _ rfl (by simp) (by simp) (by simp)

@[simp] theorem enterEntry_trace (q : Seq) (s : State) : (enterEntry q s).trace = s.trace := by
  unfold enterEntry; split <;> rfl

@[simp] theorem dataSent_trace (q : Seq) (s : State) : (dataSent q s).trace = s.trace := by
  unfold dataSent; split <;> simp

@[simp] theorem startData_trace (q : Seq) (s : State) : (startData q s).trace = s.trace := by
  unfold startData; split <;> simp

@[simp] theorem commandSent_trace (q : Seq) (s : State) : (commandSent q s).trace = s.trace := by
  unfold commandSent; split <;> simp

@[simp] theorem burstFailed_trace (op : Instr) (s : State) : (burstFailed op s).trace = s.trace := by cases op <;> rfl

@[simp] theorem waitPassed_trace (op : Instr) (s : State) : (waitPassed op s).trace = s.trace := by cases op <;> rfl

@[simp] theorem waitFailed_trace (op : Instr) (s : State) : (waitFailed op s).trace = s.trace := by cases op <;> rfl

/-- A small step emits one event, or, inside a burst not yet answered, none (R12). -/
theorem microStep_trace (q : Seq) (s : State) :
    (microStep q s).trace = s.trace ∨ ∃ e, (microStep q s).trace = s.trace ++ [e] := by
  unfold microStep
  split
  · exact .inr ⟨_, by simp; rfl⟩
  · exact .inr ⟨_, by simp; rfl⟩
  · exact .inr ⟨_, by simp; rfl⟩
  · exact .inr ⟨_, by simp; rfl⟩
  · exact .inr ⟨_, by simp; rfl⟩
  · unfold windowStep
    split
    · exact .inr ⟨_, by simp; rfl⟩
    · exact .inr ⟨_, by simp; rfl⟩
    · unfold burstStep
      dsimp only
      split
      · exact .inl rfl
      · exact .inr ⟨_, by simp; rfl⟩
    · dsimp only
      split <;> exact .inr ⟨_, by simp; rfl⟩
  · unfold sampleStep
    split <;> rename_i t h <;> (have ht : t = (sampleBusy s).2 := by rw [h]) <;> subst ht
    · exact .inr ⟨_, by simp; rfl⟩
    · split <;> exact .inr ⟨_, by simp; rfl⟩
  · exact .inr ⟨_, by simp; rfl⟩

end Sys2Proof.Machine
end

