-- ==== Sys2Proof/Laws/SmallSteps.lean ====
section
/-! SUPPORT. Laws/SmallSteps.lean: what several small steps come to, one lemma per part of an operation: a chip-select window
(`Reaches.command`, `Reaches.data`), a busy-wait (`Reaches.wait`) and the init table (`Reaches.table`) reach what the primitives of
Ops.lean give. `Reaches.run` turns such a chain into a run of the machine. -/

namespace Sys2Proof.Machine

/-- Small steps of a running operation with no host action pending, none or more of them. -/
inductive Reaches : State → State → Prop where
  | refl (s : State) : Reaches s s
  | step {s t : State} {q : Seq} (hactive : s.active = true) (hdone : s.done = false) (hhost : s.host = [])
      (hseq : s.seq = some q) (h : Reaches (microStep q s) t) : Reaches s t

theorem Reaches.trans {s t u : State} (h : Reaches s t) (h' : Reaches t u) : Reaches s u := by
  induction h with
  | refl => exact h'
  | step ha hd hh hq _ ih => exact .step ha hd hh hq (ih h')

/-- A chain of small steps is a run of the machine, and an operation is running at every state before the last. -/
theorem Reaches.run {s t : State} (h : Reaches s t) :
    ∃ n, Host.Core.run Sys2Proof.core n s = .next t
      ∧ ∀ m < n, ∃ u : State, Host.Core.run Sys2Proof.core m s = .next u ∧ u.active = true := by
  induction h with
  | refl s => exact ⟨0, rfl, fun _ h => absurd h (Nat.not_lt_zero _)⟩
  | @step s t q ha hd hh hq _ ih =>
    obtain ⟨n, hn, hm⟩ := ih
    have hs : Machine.step s = .next (microStep q s) := by
      have e : s.withDone false = s := by rw [← hd]; rfl
      rw [step_nil hh, e, advance, ha, if_pos rfl, hq]
    refine ⟨n + 1, by rw [run_next hs]; exact hn, fun m hlt => ?_⟩
    cases m with
    | zero => exact ⟨s, rfl, ha⟩
    | succ m =>
      obtain ⟨u, hu, ha⟩ := hm m (by omega)
      exact ⟨u, by rw [run_next hs]; exact hu, ha⟩

/-- The control part of a state in the middle of an operation. -/
structure Going (s : State) : Prop where
  active : s.active = true
  done   : s.done = false
  host   : s.host = []

theorem Reaches.one {s t : State} {q : Seq} (g : Going s) (hq : s.seq = some q) (h : Reaches (microStep q s) t) : Reaches s t :=
  .step g.active g.done g.host hq h

/-- The bytes of a burst depend on the configuration, the framebuffer and `tbl_idx` only (R52). -/
theorem burstBytes_congr {op : Instr} {k : WireKind} {s t : State} (hcfg : t.cfg = s.cfg) (hfb : t.fb = s.fb)
    (hepoch : t.fbEpoch = s.fbEpoch) (htbl : t.tblIdx = s.tblIdx) : burstBytes op k t = burstBytes op k s := by
  have := frame_congr hfb hepoch hcfg
  cases op <;> cases k <;> simp [burstBytes, currentEntry, hcfg, htbl, this]

/-- What follows a window that was answered `r`. -/
def afterWindow (q : Seq) (k : WireKind) (r : BusOutcome) (s : State) : State :=
  match r, k with
  | .fault _, _ => burstFailed q.op s
  | .ok, .cmd   => commandSent q s
  | .ok, .data  => dataSent q s

theorem enterEntry_withSeq (q : Seq) (y : Option Seq) (s : State) : enterEntry q (s.withSeq y) = enterEntry q s := by
  unfold enterEntry
  rw [State.withSeq_tblIdx, State.withSeq_cfg]
  split <;> rfl

theorem dataSent_withSeq (q : Seq) (y : Option Seq) (s : State) : dataSent q (s.withSeq y) = dataSent q s := by
  unfold dataSent
  split
  · exact enterEntry_withSeq q y (countEntry s)
  all_goals rfl

/-- The position of the state makes no difference to what follows a window: it is overwritten. -/
theorem afterWindow_withSeq (q : Seq) (k : WireKind) (r : BusOutcome) (y : Option Seq) (s : State) :
    afterWindow q k r (s.withSeq y) = afterWindow q k r s := by
  unfold afterWindow
  split
  · cases q.op <;> rfl
  · unfold commandSent startData
    rw [burstBytes_congr (s := s) rfl rfl rfl rfl, dataSent_withSeq]
    split <;> rfl
  · exact dataSent_withSeq _ _ _

/-- A burst with `j` bytes still to hand over. -/
theorem Reaches.burst (op : Instr) (st : Nat) (k : WireKind) (j n : Nat) (s : State) (g : Going s)
    (hq : s.seq = some ⟨op, st, .window k .burst⟩) (hb : s.byteIdx = some n)
    (hj : burstTarget (burstBytes op k s).length (s.env.nextBus (burstBytes op k s).length) - n = j) :
    Reaches s (goto ⟨op, st, .window k .burst⟩ (.window k (.csHigh (busTransfer (burstBytes op k s) s).1))
      (busTransfer (burstBytes op k s) s).2) := by
  induction j generalizing n s with
  | zero =>
    refine .one g hq ?_
    simp only [microStep, windowStep, burstStep]
    rw [if_neg (by rw [hb]; simp only [Option.getD_some]; omega)]
    exact .refl _
  | succ j ih =>
    refine .one g hq ?_
    have e : burstBytes op k (s.withByteIdx (some (n + 1))) = burstBytes op k s := burstBytes_congr rfl rfl rfl rfl
    have := ih (n + 1) (s.withByteIdx (some (n + 1))) ⟨g.active, g.done, g.host⟩ hq rfl
      (by rw [e]; simp only [State.withByteIdx_env]; omega)
    rw [e] at this
    simp only [microStep, windowStep, burstStep]
    rw [if_pos (by rw [hb]; simp only [Option.getD_some]; omega), hb]
    exact this

/-- The events of one window of a burst of bytes `bs`, by primitives. -/
def windowOps (k : WireKind) (bs : List Byte) (s : State) : BusOutcome × State :=
  let x := busTransfer bs (pinWrite .cs .low (pinWrite .dc (dcLevel k) s))
  (x.1, pinWrite .cs .high x.2)

/-- A window, from its first event to what follows it. -/
theorem Reaches.window (op : Instr) (st : Nat) (k : WireKind) (s : State) (g : Going s)
    (hq : s.seq = some ⟨op, st, .window k .dc⟩) :
    Reaches s (afterWindow ⟨op, st, .window k .dc⟩ k (windowOps k (burstBytes op k s) s).1
      (windowOps k (burstBytes op k s) s).2) := by
  refine .one g hq (.one (q := ⟨op, st, .window k .csLow⟩)
    ⟨by simp [microStep, windowStep, g.active], by simp [microStep, windowStep, g.done],
      by simp [microStep, windowStep, g.host]⟩ rfl ?_)
  let u := goto ⟨op, st, .window k .csLow⟩ (.window k .burst)
    ((pinWrite .cs .low (goto ⟨op, st, .window k .dc⟩ (.window k .csLow) (pinWrite .dc (dcLevel k) s))).withByteIdx (some 0))
  have gu : Going u := ⟨by simp [u, g.active], by simp [u, g.done], by simp [u, g.host]⟩
  refine (Reaches.burst op st k _ 0 u gu rfl rfl rfl).trans ?_
  rw [show burstBytes op k u = burstBytes op k s from
    burstBytes_congr (by simp [u]) (by simp [u]) (by simp [u]) (by simp [u])]
  refine .one (q := ⟨op, st, .window k (.csHigh (windowOps k (burstBytes op k s) s).1)⟩)
    ⟨by simp [gu.active], by simp [gu.done], by simp [gu.host]⟩ rfl ?_
  have e (q : Seq) : pinWrite .cs .high (goto q (.window k (.csHigh (windowOps k (burstBytes op k s) s).1))
        (busTransfer (burstBytes op k s) u).2)
      = (windowOps k (burstBytes op k s) s).2.withSeq
          (some { q with pos := .window k (.csHigh (windowOps k (burstBytes op k s) s).1) }) := rfl
  have e' (q : Seq) (p : Pos) (r : BusOutcome) (z : State) : afterWindow { q with pos := p } k r z = afterWindow q k r z := by
    unfold afterWindow
    split <;> rfl
  have hm : ∀ z, microStep ⟨op, st, .window k (.csHigh (windowOps k (burstBytes op k s) s).1)⟩ z
      = afterWindow ⟨op, st, .window k (.csHigh (windowOps k (burstBytes op k s) s).1)⟩ k
          (windowOps k (burstBytes op k s) s).1 (pinWrite .cs .high z) := by
    intro z
    simp only [microStep, windowStep]
    generalize (windowOps k (burstBytes op k s) s).1 = r
    cases r <;> cases k <;> rfl
  have ee : (busTransfer (burstBytes op k s) u).1 = (windowOps k (burstBytes op k s) s).1 := rfl
  rw [hm, ee, e, afterWindow_withSeq, e' ⟨op, st, .window k .dc⟩]
  exact .refl _

/-- A command byte `c`: SendCommand, then what follows it (R73). -/
theorem Reaches.command (op : Instr) (st : Nat) (p : Pos) (c : Byte) (s : State) (g : Going s)
    (h : burstBytes op .cmd s = [c]) :
    Reaches (goto ⟨op, st, p⟩ (.window .cmd .dc) s)
      (afterWindow ⟨op, st, .window .cmd .dc⟩ .cmd (sendCommand c s).1 (sendCommand c s).2) := by
  have := Reaches.window op st .cmd (goto ⟨op, st, p⟩ (.window .cmd .dc) s) ⟨g.active, g.done, g.host⟩ rfl
  rw [show burstBytes op .cmd (goto ⟨op, st, p⟩ (.window .cmd .dc) s) = [c] from
    (burstBytes_congr rfl rfl rfl rfl).trans h] at this
  rw [show windowOps .cmd [c] (goto ⟨op, st, p⟩ (.window .cmd .dc) s)
    = ((sendCommand c s).1, (sendCommand c s).2.withSeq (some ⟨op, st, .window .cmd .dc⟩)) from rfl, afterWindow_withSeq] at this
  exact this

/-- A parameter or data block: SendData, then what follows it, at once when the block is empty (R74). -/
theorem Reaches.data (op : Instr) (st : Nat) (p : Pos) (s : State) (g : Going s) :
    Reaches (startData ⟨op, st, p⟩ s)
      (afterWindow ⟨op, st, p⟩ .data (sendData (burstBytes op .data s) s).1 (sendData (burstBytes op .data s) s).2) := by
  unfold startData
  split
  · rename_i h
    rw [List.isEmpty_iff.1 h]
    exact .refl _
  · rename_i h
    have := Reaches.window op st .data (goto ⟨op, st, p⟩ (.window .data .dc) s) ⟨g.active, g.done, g.host⟩ rfl
    rw [show burstBytes op .data (goto ⟨op, st, p⟩ (.window .data .dc) s) = burstBytes op .data s from
      burstBytes_congr rfl rfl rfl rfl] at this
    obtain ⟨b, bs, hx⟩ := List.exists_cons_of_ne_nil (l := burstBytes op .data s) (by simpa using h)
    rw [hx] at this ⊢
    rw [show windowOps .data (b :: bs) (goto ⟨op, st, p⟩ (.window .data .dc) s)
      = ((sendData (b :: bs) s).1, (sendData (b :: bs) s).2.withSeq (some ⟨op, st, .window .data .dc⟩)) from rfl,
      afterWindow_withSeq] at this
    exact this

/-- What follows a busy-wait. -/
def afterWait (op : Instr) : WaitResult × State → State
  | (.ok, s) => waitPassed op s
  | (.timeout, s) => waitFailed op s

theorem Reaches.waitLoop (op : Instr) (st left n : Nat) (s : State) (g : Going s) (hp : s.pollCnt = some n)
    (hn : n + left = s.cfg.nPollMax) :
    Reaches (s.withSeq (some ⟨op, st, .sample⟩)) (afterWait op (busyWaitLoop left s)) := by
  have hs (s : State) (y : Option Seq) : sampleBusy (s.withSeq y) = ((sampleBusy s).1, (sampleBusy s).2.withSeq y) := rfl
  have hpass (s : State) (y : Option Seq) : waitPassed op (s.withSeq y) = waitPassed op s := by cases op <;> rfl
  have hfail (s : State) (y : Option Seq) : waitFailed op (s.withSeq y) = waitFailed op s := by cases op <;> rfl
  induction left generalizing n s with
  | zero =>
    refine .one (q := ⟨op, st, .sample⟩) ⟨g.active, g.done, g.host⟩ rfl ?_
    simp only [microStep, sampleStep, hs]
    cases hb : s.env.busyAt 0
    · rw [busyWaitLoop_low hb]
      simp only [sampleBusy_fst, hb, hpass]
      exact .refl _
    · rw [busyWaitLoop_high_zero hb]
      simp only [sampleBusy_fst, hb, hfail]
      rw [if_neg (by simp [hp]; omega)]
      exact .refl _
  | succ left ih =>
    refine .one (q := ⟨op, st, .sample⟩) ⟨g.active, g.done, g.host⟩ rfl ?_
    simp only [microStep, sampleStep, hs]
    cases hb : s.env.busyAt 0
    · rw [busyWaitLoop_low hb]
      simp only [sampleBusy_fst, hb, hpass]
      exact .refl _
    · rw [busyWaitLoop_high_succ hb]
      simp only [sampleBusy_fst, hb]
      rw [if_pos (by simp [hp]; omega)]
      refine .one (q := ⟨op, st, .pollDelay⟩) ⟨by simp [g.active], by simp [g.done], by simp [g.host]⟩ rfl ?_
      exact ih (n + 1) (countPoll (delay s.cfg.tPollUs (sampleBusy s).2))
        ⟨by simp [g.active], by simp [g.done], by simp [g.host]⟩ (by simp [hp]) (by simp; omega)

/-- A busy-wait: BusyWait, then what follows it (R76). -/
theorem Reaches.wait (op : Instr) (st : Nat) (p : Pos) (s : State) (g : Going s) :
    Reaches (startPoll ⟨op, st, p⟩ s) (afterWait op (busyWait s)) :=
  Reaches.waitLoop op st s.cfg.nPollMax 0 (s.withPollCnt (some 0)) ⟨g.active, g.done, g.host⟩ rfl (by simp)

/-- What follows the init table: the failure, or the busy-wait of step 4 and what follows that. -/
def afterTable : BusOutcome × State → State
  | (.fault _, s) => burstFailed .initialise s
  | (.ok, s) => afterWait .initialise (busyWait s)

/-- The entries `es` of the init table from `tbl_idx` on, then what follows the table (R80). -/
theorem Reaches.table (st : Nat) (es : List InitEntry) (p : Pos) (i : Nat) (s : State) (g : Going s) (hi : s.tblIdx = some i)
    (hes : s.cfg.initTable.drop i = es) :
    Reaches (enterEntry ⟨.initialise, st, p⟩ s) (afterTable (sendTable es s)) := by
  induction es generalizing p i s with
  | nil =>
    have : ¬ i < s.cfg.initTable.length := by have := List.drop_eq_nil_iff.1 hes; omega
    simp only [enterEntry, hi, Option.getD_some, if_neg this, sendTable_nil]
    exact Reaches.wait _ _ _ _ g
  | cons e es ih =>
    have hlt : i < s.cfg.initTable.length := by
      apply Decidable.byContradiction
      intro h
      rw [List.drop_eq_nil_iff.2 (by omega)] at hes
      cases hes
    have hget : s.cfg.initTable[i]? = some e := by rw [← List.head?_drop, hes]; rfl
    have hcur (t : State) (hc : t.cfg = s.cfg) (ht : t.tblIdx = some i) : currentEntry t = e := by
      simp [currentEntry, hc, ht, hget]
    simp only [enterEntry, hi, Option.getD_some, if_pos hlt]
    refine (Reaches.command .initialise st p e.cmd s g (by simp [burstBytes, hcur s rfl hi])).trans ?_
    rw [sendTable_cons, sendEntry_eq]
    have g₁ : Going (sendCommand e.cmd s).2 := ⟨by simp [g.active], by simp [g.done], by simp [g.host]⟩
    have hb : burstBytes .initialise .data (sendCommand e.cmd s).2 = e.params := by
      simp [burstBytes, hcur (sendCommand e.cmd s).2 (by simp) (by simp [hi])]
    cases (sendCommand e.cmd s).1 with
    | fault k => exact .refl _
    | ok =>
      refine (Reaches.data .initialise st (.window .cmd .dc) _ g₁).trans ?_
      rw [hb]
      dsimp only
      cases (sendData e.params (sendCommand e.cmd s).2).1 with
      | fault k => exact .refl _
      | ok =>
        exact ih _ (i + 1) (countEntry (sendData e.params (sendCommand e.cmd s).2).2)
          ⟨by simp [g.active], by simp [g.done], by simp [g.host]⟩ (by simp [hi]) (by simpa using congrArg List.tail hes)

end Sys2Proof.Machine
end

