-- ==== Sys2Proof/Tests/Slice0.lean ====
section
/-! SUPPORT. Tests/Slice0.lean: the model's own tests. The expected values are those of spec/95_test_vectors.md (V and S numbers,
programs PA to PF), or are written out from the rules cited; the fixture is TESTCFG. At the end, the witnesses: for every statement
with hypotheses, a concrete state that meets them. -/

namespace Sys2Proof.Tests

open Sys2Proof.Machine

/-! ## Fixtures -/

/-- TESTCFG of 95_test_vectors.md. -/
def testCfg : Cfg :=
  ⟨16, 2, [⟨0xA1, [0x11, 0x22]⟩, ⟨0xA2, []⟩], 0xB1, 0xB2, 0xB3, [0xC5], 20000, 20000, 1000, 5, 1⟩

/-- The geometry of REFCFG. -/
def refCfg : Cfg := { testCfg with width := 800, height := 480 }

/-- F0 of 95_test_vectors.md. -/
def f0 : List Byte := [0x80, 0x01, 0x00, 0xFF]

/-- The state after block reset under TESTCFG, with a script of the environment. -/
def fresh (bus : List BusOutcome) (busy : List Level) : State :=
  { State.reset with cfg := testCfg, env := ⟨bus, busy, 0, 0⟩ }

/-- An idle state of a session (the start states of parts 2.5 to 2.8): F0 loaded and lines as the last operation left them. -/
def session (p : Phase) (bus : List BusOutcome) (busy : List Level) : State :=
  { fresh bus busy with
    phase := p, cs := some .high, dc := some .low, rst := some .high, lastBusy := some .low
    fb := [(0, 0x80), (1, 0x01), (2, 0x00), (3, 0xFF)], panel := ⟨.configured, .bytes f0, .undefined⟩ }

/-- A state in the middle of an operation that has emitted nothing yet. -/
def running (op : Instr) (pos : Pos) (bus : List BusOutcome) (busy : List Level) : State :=
  { session (phaseAt op pos) bus busy with active := true, seq := some ⟨op, 0, pos⟩ }

/-- The state with a list of host actions. -/
def doing (s : State) (h : List HostAction) : State := s.withHost h

/-- The next state, if there is one. -/
def nextOf : Host.Outcome State Fault Refusal → Option State
  | .next s => some s
  | .fault _ => none
  | .refused _ => none

/-- The fault, if there is one. -/
def faultOf : Host.Outcome State Fault Refusal → Option Fault
  | .next _ => none
  | .fault f => some f
  | .refused _ => none

/-- Whether there is a next state and it has a property. -/
def nextHas (o : Host.Outcome State Fault Refusal) (p : State → Bool) : Bool := (nextOf o).any p

/-- The line latches and the last sample, as the vectors write them. -/
def lines (s : State) : Option Level × Option Level × Option Level × Option Level := (s.cs, s.dc, s.rst, s.lastBusy)

/-! ## Well-formedness: one ill-formed term per check -/

theorem test_wf_testcfg : testCfg.wf = true ∧ refCfg.wf = true := by decide
theorem test_wf_every_operation : Instr.wf .initialise = true ∧ Instr.wf .sleep = true := by decide
/-- Where `MemRead` is defined (R31). -/
theorem test_memRead_range : memReadDefined 0 testCfg.fbBytes testCfg = true ∧ memReadDefined 1 testCfg.fbBytes testCfg = false
    ∧ memReadDefined 0 0 testCfg = false := by decide

theorem test_wf_refuses_width_below_8 : Cfg.widthAtLeast8 { testCfg with width := 0 } = false
    ∧ Cfg.wf { testCfg with width := 0 } = false := by decide
theorem test_wf_refuses_odd_width : Cfg.widthWholeBytes { testCfg with width := 12 } = false
    ∧ Cfg.wf { testCfg with width := 12 } = false := by decide
theorem test_wf_refuses_height_0 : Cfg.heightPositive { testCfg with height := 0 } = false
    ∧ Cfg.wf { testCfg with height := 0 } = false := by decide
theorem test_wf_refuses_poll_bound_0 : Cfg.pollBoundPositive { testCfg with nPollMax := 0 } = false
    ∧ Cfg.wf { testCfg with nPollMax := 0 } = false := by decide
theorem test_wf_refuses_no_check_code : Cfg.sleepParamsPresent { testCfg with sleepParams := [] } = false
    ∧ Cfg.wf { testCfg with sleepParams := [] } = false := by decide
theorem test_wf_refuses_write_beyond_fb : HostAction.wf testCfg (.memWrite 3 [0, 0]) = false
    ∧ HostAction.wf testCfg (.memWrite 3 [0]) = true := by decide
/-- A port write of no bytes stores nothing (assumption log 32). -/
theorem test_empty_write : HostAction.wf testCfg (.memWrite 4 []) = true ∧ HostAction.wf testCfg (.memWrite 5 []) = false
    ∧ nextHas (memWrite 4 [] (session .ready [] [])) (· == session .ready [] []) = true
    ∧ faultOf (memWrite 5 [] (session .ready [] [])) = some .fbAddress := by decide

/-! ## Decoding: the words of R51, bit by bit -/

theorem test_decode_initialize : decode (BitVec.ofBool false ++ BitVec.ofBool false) = .initialise := by decide
theorem test_decode_update_frame : decode (BitVec.ofBool false ++ BitVec.ofBool true) = .updateFrame := by decide
theorem test_decode_display_frame : decode (BitVec.ofBool true ++ BitVec.ofBool false) = .displayFrame := by decide
theorem test_decode_sleep : decode (BitVec.ofBool true ++ BitVec.ofBool true) = .sleep := by decide
/-- The mask 0x3 of the opcode table: the other six bits of a byte are not looked at. -/
theorem test_decode_table_masks : decodeTableWord 8 0xF6 = some .displayFrame ∧ decodeTableWord 2 1 = some .updateFrame := by decide
/-- No byte, no word: refused by name. -/
theorem test_decode_refuses_no_byte : (match decodeBytes [] with | .error .noWord => true | .ok _ => false) = true
    ∧ decodeTableWord 0 0 = none := by decide
/-- PA: `00 01 10 11`, packed 0xE4; SHOW and RECOVER have the words of their operations only (R59, R60). -/
theorem test_listing_words : packWords (programWords [.blockReset, .fbLoad f0, .call 0, .call 1, .call 2, .call 3]) = 0xE4
    ∧ programWords (showActions f0) = [1, 2] ∧ programWords (recoverActions f0) = [0, 1, 2]
    ∧ ofMnemonic "DISPLAY_FRAME" = some .displayFrame ∧ ofMnemonic "NOP" = none := by decide

/-! ## Result and status words (section 0 of the vectors) -/

theorem test_result_word_timeout : resultWord ⟨.busyTimeout, .busyTimeout⟩ = 0b10100#5 := by decide
theorem test_result_word_refused : resultOfWord 0b11000#5 = none ∧ resultOfWord 0b00101#5 = none := by decide
theorem test_status_words : statusWord (running .initialise .rstLow [] []) = 0x8#4
    ∧ statusWord (running .updateFrame .sample [] []) = 0xA#4 ∧ statusWord (running .displayFrame .sample [] []) = 0xB#4
    ∧ statusWord (running .sleep (.window .cmd .dc) [] []) = 0x9#4 ∧ statusWord (session .faulted [] []) = 0x5#4
    ∧ statusOfWord 0x7#4 = none := by decide

/-! ## Primitives -/

/-- V28: the wire view of a burst that faults at its last byte. -/
theorem test_send_data_fault : (sendData f0 (fresh [.fault 3] [])).1 = .fault 3
    ∧ wireView (sendData f0 (fresh [.fault 3] [])).2.trace = [(.data, 0x80), (.data, 0x01), (.data, 0x00)] := by decide
/-- V25: an empty block changes nothing. -/
theorem test_send_data_empty : sendData [] (fresh [] []) = (.ok, fresh [] []) := by rfl
/-- V32: low at the very last sample. -/
theorem test_busy_wait_last_sample : (busyWait (fresh [] [.high, .high, .high, .high, .high, .low])).1 = .ok
    ∧ (busyWait (fresh [] [.high, .high, .high, .high, .high, .low])).2.trace.length = 11 := by decide
/-- V33: six high samples. -/
theorem test_busy_wait_timeout : (busyWait (fresh [] [.high, .high, .high, .high, .high, .high, .low])).1 = .timeout
    ∧ (busyWait (fresh [] [.high, .high, .high, .high, .high, .high, .low])).2.env.busyScript = [.low] := by decide

/-! ## The operations, two vectors each -/

/-- V41. -/
theorem test_initialize_ok : nextHas (exec .initialise (fresh [.ok, .ok, .ok] [.low])) (fun t =>
    t.trace == [.pin .cs .high, .pin .rst .low, .delay 20000, .pin .rst .high, .delay 20000,
      .pin .dc .low, .pin .cs .low, .bus [0xA1] .ok, .pin .cs .high,
      .pin .dc .high, .pin .cs .low, .bus [0x11, 0x22] .ok, .pin .cs .high,
      .pin .dc .low, .pin .cs .low, .bus [0xA2] .ok, .pin .cs .high, .busy .low]
    && t.phase == .ready && resultWord t.result == 0x00#5
    && lines t == (some .high, some .low, some .high, some .low)) = true := by decide
/-- V44: the parameter block of entry 0 faults; entry 1 is never sent and BUSY never sampled. -/
theorem test_initialize_fault : nextHas (exec .initialise (fresh [.ok, .fault 1] [.low])) (fun t =>
    t.trace.length == 13 && wireView t.trace == [(.cmd, 0xA1), (.data, 0x11)] && t.phase == .faulted
    && resultWord t.result == 0x0A#5 && lines t == (some .high, some .high, some .high, none)) = true := by decide

/-- V52. -/
theorem test_update_frame_ok : nextHas (exec .updateFrame (session .ready [.ok, .ok] [.low])) (fun t =>
    t.trace == [.pin .dc .low, .pin .cs .low, .bus [0xB1] .ok, .pin .cs .high,
      .pin .dc .high, .pin .cs .low, .bus [0x80, 0x01, 0x00, 0xFF] .ok, .pin .cs .high, .busy .low]
    && t.phase == .ready && resultWord t.result == 0x00#5
    && lines t == (some .high, some .high, some .high, some .low) && t.panel.ram == .bytes f0) = true := by decide
/-- V55: a fault in mid-burst. -/
theorem test_update_frame_fault : nextHas (exec .updateFrame (session .ready [.ok, .fault 2] [.low])) (fun t =>
    t.trace.length == 8 && wireView t.trace == [(.cmd, 0xB1), (.data, 0x80), (.data, 0x01)] && t.phase == .faulted
    && resultWord t.result == 0x0B#5 && t.panel.ram == .undefined && t.lastBusy == some .low) = true := by decide

/-- V61. -/
theorem test_display_frame_ok : nextHas (exec .displayFrame (session .ready [.ok] [.high, .high, .low])) (fun t =>
    t.trace == [.pin .dc .low, .pin .cs .low, .bus [0xB2] .ok, .pin .cs .high,
      .busy .high, .delay 1000, .busy .high, .delay 1000, .busy .low]
    && t.phase == .ready && lines t == (some .high, some .low, some .high, some .low)
    && t.panel.visible == .bytes f0) = true := by decide
/-- V63. -/
theorem test_display_frame_timeout :
    nextHas (exec .displayFrame (session .ready [.ok] [.high, .high, .high, .high, .high, .high])) (fun t =>
      t.trace.length == 15 && requestedDelay t.trace == 5000 && t.phase == .faulted && resultWord t.result == 0x14#5
      && t.lastBusy == some .high && t.panel.visible == .undefined) = true := by decide

/-- V66. -/
theorem test_sleep_ok : nextHas (exec .sleep (session .ready [.ok, .ok] [])) (fun t =>
    t.trace == [.pin .dc .low, .pin .cs .low, .bus [0xB3] .ok, .pin .cs .high,
      .pin .dc .high, .pin .cs .low, .bus [0xC5] .ok, .pin .cs .high]
    && t.phase == .sleeping && resultWord t.result == 0x00#5
    && lines t == (some .high, some .high, some .high, some .low) && t.panel.config == .asleep) = true := by decide
/-- V70: SLEEP in Sleeping. -/
theorem test_sleep_refused : nextHas (exec .sleep (session .sleeping [] [])) (fun t =>
    t.trace == [] && t.phase == .sleeping && resultWord t.result == 0x01#5 && t.done) = true := by decide

/-! ## Small steps -/

/-- R12: the first small step of UPDATE_FRAME after its acceptance emits `Pin(DC, low)`. -/
theorem test_small_step : nextHas (step (running .updateFrame (.window .cmd .dc) [] [])) (fun t =>
    t.trace == [.pin .dc .low] && t.seq.map Seq.pos == some (.window .cmd .csLow) && statusWord t == 0xA#4) = true := by decide

/-- UPDATE_FRAME in the middle of its data burst (V73), one byte handed over. -/
def midBurst (h : List HostAction) : State :=
  { running .updateFrame (.window .data .burst) [.ok] [.low] with
    trace := [.pin .dc .low, .pin .cs .low, .bus [0xB1] .ok, .pin .cs .high, .pin .dc .high, .pin .cs .low]
    cs := some .low, dc := some .high, byteIdx := some 1, host := h }

/-- V73: reset while the data burst of UPDATE_FRAME is in progress. -/
theorem test_reset_in_mid_burst : nextHas (step (midBurst [.blockReset])) (fun t =>
    t.trace.length == 6 && !t.done && resultWord t.result == 0x00#5 && lines t == (none, none, none, none)
    && t.panel == ⟨.undefined, .undefined, .undefined⟩ && t.fb == []) = true := by decide
/-- R121, R132: a block reset is asserted while an operation word is held off; the word waits on across it, and the answer of the
burst that was cut is used up (assumption logs 11, 13, 30). -/
theorem test_reset_while_a_word_is_held_off : nextHas (step (midBurst [.call 0, .idle, .blockReset])) (fun t =>
    t.host == [.call 0, .blockReset] && t.active && t.byteIdx == some 2) = true
    ∧ nextHas (step (midBurst [.call 0, .blockReset])) (fun t =>
    t.host == [.call 0] && !t.active && t.phase == .uninitialized && t.env.busScript == []) = true := by decide
/-- U13: of the panel's RAM nothing is known in deep sleep, nor after a failed SLEEP. -/
theorem test_ram_unknown_after_sleep : ramKnown (session .ready [] []) = .bytes f0
    ∧ nextHas (exec .sleep (session .ready [.ok, .ok] [])) (fun t => ramKnown t == .undefined) = true
    ∧ nextHas (exec .sleep (session .ready [.ok, .fault 0] [])) (fun t => ramKnown t == .undefined) = true := by decide
/-- A port write is held off in the middle of a burst (R38), and the burst goes on. -/
theorem test_write_held_off : nextHas (step (midBurst [.memWrite 0 [7]])) (fun t =>
    t.host == [.memWrite 0 [7]] && t.byteIdx == some 2 && t.fb == (midBurst []).fb) = true := by decide

/-! ## The framebuffer -/

/-- V1, V3, V4. -/
theorem test_fb_create : (fbCreate 16 2).toOption.map fbAsBytes = some [0, 0, 0, 0]
    ∧ (fbCreate 804 480).toOption = none ∧ (fbCreate 0 5).toOption.map fbAsBytes = some [] := by decide
/-- V7, V8: the size of a width that is not a multiple of 8 is rounded up. -/
theorem test_fb_from_bytes : (fbFromBytes 12 2 [0xAA, 0xBB, 0xCC, 0xDD]).toOption.map fbAsBytes = some [0xAA, 0xBB, 0xCC, 0xDD]
    ∧ (fbFromBytes 12 2 [0xAA, 0xBB]).toOption = none := by decide
/-- V10, V11. -/
theorem test_fb_load : (fbLoad f0 (fresh [] [])).fb = [(0, 0x80), (1, 0x01), (2, 0x00), (3, 0xFF)]
    ∧ (fbLoad [0] (session .ready [] [])).fb = (session .ready [] []).fb
    ∧ (fbLoad [0] (session .ready [] [])).loadErr = .sizeMismatch := by decide
/-- V18, V19. -/
theorem test_pixel_map : pixelAddr refCfg 403 237 = 23750 ∧ pixelBit 403 = 4 ∧ pixelAddr refCfg 799 479 = 47999
    ∧ pixelBit 799 = 0 ∧ refCfg.fbBytes = 48000 := by decide
/-- The pixels of F0: (0,0), (15,0), (8,1) are set, (1,0) and (7,1) are not. -/
theorem test_pixels : pixel (session .ready [] []) 0 0 = true ∧ pixel (session .ready [] []) 15 0 = true
    ∧ pixel (session .ready [] []) 8 1 = true ∧ pixel (session .ready [] []) 1 0 = false
    ∧ pixel (session .ready [] []) 7 1 = false := by decide
/-- An idle block, and a running one that holds a word off; a burst in progress and none. -/
theorem witness_BlockResetGivesResetValues :
    ((doing (session .sleeping [] []) [.blockReset]).host = [] ++ .blockReset :: [] ∧ (session .sleeping [] []).byteIdx = none)
    ∧ ((midBurst [.call 0, .blockReset]).host = [.call 0] ++ .blockReset :: [] ∧ (∀ a ∈ [HostAction.call 0], a.isRequest = true)
      ∧ (midBurst []).active = true ∧ (midBurst []).byteIdx = some 1) := by decide

theorem witness_PowerCycleGivesResetValues :
    ((doing (session .sleeping [] []) [.powerCycle]).host = [] ++ .powerCycle :: [] ∧ (session .sleeping [] []).byteIdx = none)
    ∧ ((midBurst [.call 0, .powerCycle]).host = [.call 0] ++ .powerCycle :: [] ∧ (∀ a ∈ [HostAction.call 0], a.isRequest = true)
      ∧ (midBurst []).active = true ∧ (midBurst []).byteIdx = some 1) := by decide

/-- Both clauses of ResetCutsAnOperationShort: an operation that has used the bus and holds a word off, and one that has not. -/
theorem witness_ResetCutsAnOperationShort :
    (midBurst [.call 0, .blockReset]).active = true
    ∧ (midBurst [.call 0, .blockReset]).seq = some ⟨.updateFrame, 0, .window .data .burst⟩
    ∧ (midBurst [.call 0, .blockReset]).host = [.call 0] ++ .blockReset :: []
    ∧ (∀ a ∈ [HostAction.call 0], a.isRequest = true)
    ∧ (Seq.emitted ⟨.updateFrame, 0, .window .data .burst⟩ (midBurst [.call 0, .blockReset])).any isBus = true
    ∧ (Seq.emitted ⟨.initialise, 0, .csIdle⟩ (running .initialise .csIdle [] [])).any isBus = false := by decide

theorem witness_ResetBetweenOperationsKeepsThePanel :
    (doing (session .ready [] []) [.blockReset]).active = false
    ∧ (doing (session .ready [] []) [.powerCycle]).host = .powerCycle :: [] := by decide

/-- Both clauses: a word presented to an idle block, and the host's carriage at its smallest width. -/
theorem witness_StepRunsTheDecodedOperation :
    (doing (session .ready [] []) [.call 2]).active = false
    ∧ (doing (session .ready [] []) [.call 2]).host = .call 2 :: [] ∧ 2 ≤ 2 := by decide

/-- Both clauses: a word presented to a ready block and to a running one. -/
theorem witness_HandshakeAcceptsTheWord :
    opReady (doing (session .ready [] []) [.call 2]) = true ∧ opCode (doing (session .ready [] []) [.call 2]) = some 2
    ∧ opReady (midBurst [.start 3]) = false ∧ opCode (midBurst [.start 3]) = some 3
    ∧ (∃ t, step (midBurst [.start 3]) = .next t) :=
  ⟨by decide, by decide, by decide, by decide, ⟨_, rfl⟩⟩

theorem witness_RequestsAreHeldOffWhileActive :
    (midBurst [.call 0]).active = true ∧ (midBurst [.call 0]).seq = some ⟨.updateFrame, 0, .window .data .burst⟩
    ∧ (midBurst [.memWrite 0 [7], .idle]).host = .memWrite 0 [7] :: [.idle]
    ∧ (HostAction.memWrite 0 [7]).isRequest = true ∧ QuietHost (midBurst [.memWrite 0 [7], .idle]) := by
  unfold QuietHost; decide

/-- Both clauses: no request, and an operation refused in Uninitialized. -/
theorem witness_IdleBlockWaitsForARequest :
    (session .ready [] []).active = false ∧ (session .ready [] []).host = []
    ∧ State.reset.phase = .uninitialized ∧ Instr.sleep ≠ .initialise := by decide

theorem witness_RefusedOutsideReady :
    Idle (session .sleeping [] []) ∧ Instr.sleep ≠ .initialise ∧ (session .sleeping [] []).phase ≠ .ready := by
  unfold Idle; decide

/-- Both clauses: a guard that refuses and one that lets pass. -/
theorem witness_AcceptanceStartsTheOperation :
    Idle (doing (session .faulted [] []) [.start 1]) ∧ (doing (session .faulted [] []) [.start 1]).host = .start 1 :: []
    ∧ guardPasses (decode 1) Phase.faulted = false ∧ guardPasses (decode 0) Phase.faulted = true := by
  unfold Idle; decide

/-- BUSY low at the first sample, and at the last one allowed; a table with and without entries. -/
theorem witness_InitializeCompletes :
    (0 ≤ testCfg.nPollMax ∧ BusOkFor (tableWindows testCfg.initTable).length (fresh [.ok, .ok, .ok] [.low]).env
      ∧ BusyClearsAfter 0 (fresh [.ok, .ok, .ok] [.low]).env)
    ∧ (5 ≤ testCfg.nPollMax ∧ BusyClearsAfter 5 (fresh [] [.high, .high, .high, .high, .high, .low]).env)
    ∧ BusOkFor (tableWindows []).length (fresh [] []).env := by
  unfold BusOkFor BusyClearsAfter; decide

theorem witness_UpdateFrameCompletes :
    (session .ready [.ok, .ok] [.high, .low]).phase = .ready ∧ 0 < testCfg.fbBytes ∧ 1 ≤ testCfg.nPollMax
    ∧ BusOkFor 2 (session .ready [.ok, .ok] [.high, .low]).env
    ∧ BusyClearsAfter 1 (session .ready [.ok, .ok] [.high, .low]).env := by
  unfold BusOkFor BusyClearsAfter; decide

theorem witness_DisplayFrameCompletes :
    (session .ready [.ok] [.low]).phase = .ready ∧ 0 ≤ testCfg.nPollMax
    ∧ BusOkFor 1 (session .ready [.ok] [.low]).env ∧ BusyClearsAfter 0 (session .ready [.ok] [.low]).env := by
  unfold BusOkFor BusyClearsAfter; decide

theorem witness_SleepCompletes :
    (session .ready [.ok, .ok] []).phase = .ready
    ∧ BusOkFor (opWindows (session .ready [.ok, .ok] []) .sleep).length (session .ready [.ok, .ok] []).env
    ∧ (session .ready [.ok, .ok] []).cfg.sleepParams ≠ [] := by
  unfold BusOkFor; decide

/-- The first window and the last one, of every operation. -/
theorem witness_BusFaultEndsTheOperation :
    (guardPasses .initialise Phase.faulted = true
      ∧ (opWindows (session .faulted [.ok, .ok, .fault 0] []) .initialise)[2]? = some (.cmd, [0xA2])
      ∧ BusOkFor 2 (session .faulted [.ok, .ok, .fault 0] []).env
      ∧ (session .faulted [.ok, .ok, .fault 0] []).env.busAt 2 = .fault 0)
    ∧ ((opWindows (session .ready [.ok, .fault 3] []) .updateFrame)[1]? = some (.data, f0)
      ∧ BusOkFor 1 (session .ready [.ok, .fault 3] []).env ∧ (session .ready [.ok, .fault 3] []).env.busAt 1 = .fault 3)
    ∧ ((opWindows (session .ready [.fault 0] []) .displayFrame)[0]? = some (.cmd, [0xB2])
      ∧ BusOkFor 0 (session .ready [.fault 0] []).env ∧ (session .ready [.fault 0] []).env.busAt 0 = .fault 0)
    ∧ (opWindows (session .ready [.fault 0] []) .sleep)[0]? = some (.cmd, [0xB3]) := by
  unfold BusOkFor; decide

theorem witness_BusyTimeoutEndsTheOperation :
    Instr.updateFrame ≠ .sleep ∧ guardPasses .updateFrame Phase.ready = true
    ∧ BusOkFor (opWindows (session .ready [.ok, .ok] []) .updateFrame).length (session .ready [.ok, .ok] []).env
    ∧ BusyHighFor (testCfg.nPollMax + 1) (session .ready [.ok, .ok] [.high, .high, .high, .high, .high, .high]).env := by
  unfold BusOkFor BusyHighFor; decide

theorem witness_RefreshTimeoutIsBounded :
    (session .ready [.ok] [.high, .high, .high, .high, .high, .high]).phase = .ready
    ∧ BusOkFor 1 (session .ready [.ok] [.high, .high, .high, .high, .high, .high]).env
    ∧ BusyHighFor (testCfg.nPollMax + 1) (session .ready [.ok] [.high, .high, .high, .high, .high, .high]).env := by
  unfold BusOkFor BusyHighFor; decide

/-- For the statements about every next state of exec: OperationsLeaveTheFramebuffer, PhaseTransitionTable, EventsAreBounded,
BurstsLieInWindows, LatchesFollowTheTrace, ResetPulseOnlyInInitialize, SleepNeitherSamplesNorWaits, GhostStateIsNeverRead,
OnlyUpdateFrameReadsTheFramebuffer and the four frames; a refused and an accepted one. -/
theorem witness_exec_answers_next :
    (∃ t, exec .initialise (session .sleeping [] []) = .next t) ∧ (∃ t, exec .updateFrame (session .ready [] []) = .next t)
    ∧ (∃ t, exec .displayFrame (session .faulted [] []) = .next t) ∧ (∃ t, exec .sleep (session .ready [] []) = .next t)
    ∧ (session .faulted [] []).phase ≠ .ready ∧ Instr.displayFrame ≠ .updateFrame
    ∧ guardPasses .displayFrame Phase.faulted = false ∧ guardPasses .initialise Phase.sleeping = true
    ∧ Cfg.initTable { testCfg with initTable := [] } = [] :=
  ⟨⟨_, rfl⟩, ⟨_, rfl⟩, ⟨_, rfl⟩, ⟨_, rfl⟩, by decide⟩

theorem witness_NoFailureUnderSoundBusAndResponsivePanel :
    BusOkFor (opWindows (session .ready [.ok, .ok] [.high, .low]) .updateFrame).length (session .ready [.ok, .ok] [.high, .low]).env
    ∧ (∃ w ≤ testCfg.nPollMax, (session .ready [.ok, .ok] [.high, .low]).env.busyAt w = .low)
    ∧ (∃ t, exec .updateFrame (session .ready [.ok, .ok] [.high, .low]) = .next t) := by
  refine ⟨?_, ⟨1, ?_, ?_⟩, ⟨_, rfl⟩⟩
  · unfold BusOkFor; decide
  all_goals decide

/-- UPDATE_FRAME and then DISPLAY_FRAME, both with Ok. -/
theorem witness_FrameThenRefreshOnTheWire :
    nextHas (exec .updateFrame (session .ready [.ok, .ok, .ok] [.low, .low])) (fun t =>
      t.result == ⟨.ok, .none⟩ && nextHas (exec .displayFrame t) (fun u => u.result == ⟨.ok, .none⟩)) = true := by decide

/-- A BUSY line that is high for one event after the third one. -/
def pulseLine (p : List Event) : Level := if p.length = 3 then .high else .low

theorem pulseLine_high {p : List Event} : pulseLine p = .high ↔ p.length = 3 := by
  unfold pulseLine; split <;> simp_all

/-- Such a line is well behaved where the third event is a command byte and the fifth the only sample. -/
theorem pulseLine_wellBehaved (c : Byte) (es : List Event) (hbusy : ∀ n v,
      (Event.pin .dc .low :: .pin .cs .low :: .bus [c] .ok :: .pin .cs .high :: es)[n]? = some (.busy v) → n = 4 ∧ v = .low) :
    WellBehavedBusy pulseLine (.pin .dc .low :: .pin .cs .low :: .bus [c] .ok :: .pin .cs .high :: es) := by
  constructor
  · intro p v q h
    obtain ⟨hn, rfl⟩ := hbusy p.length v (by simp [h])
    simp [pulseLine, hn]
  · intro p e q h _ h'
    have hp : p.length = 2 := by simpa using pulseLine_high.1 h'
    obtain ⟨a, b, rfl⟩ := List.length_eq_two.1 hp
    obtain ⟨rfl, rfl, rfl, -⟩ := by simpa using h
    exact ⟨[], _, rfl, ⟨[.pin .dc .low, .pin .cs .low], c, .ok, [], rfl, rfl⟩, rfl⟩
  · intro p d q v q' h hdc hq
    have hlen : p.length + (q.length + 1) = 4 := by
      simpa using (hbusy (p ++ Event.bus [d] .ok :: q).length v (by rw [h, List.getElem?_append_right (Nat.le_refl _)]; simp)).1
    have he : (Event.pin .dc .low :: .pin .cs .low :: .bus [c] .ok :: .pin .cs .high :: es)[p.length]? = some (.bus [d] .ok) := by
      rw [h]; simp
    refine ⟨[], q, rfl, pulseLine_high.2 ?_⟩
    rw [List.length_append, List.length_singleton]
    generalize p.length = n at hlen he ⊢
    match n, hlen, he with
    | 0, _, he => simp at he
    | 1, _, he => simp at he
    | 2, _, _ => rfl
    | 3, _, he => simp at he
    | n + 4, hlen, _ => omega
  · intro p a b q _ h1 h2 h3
    have h1 := pulseLine_high.1 h1
    have h3 := pulseLine_high.1 h3
    rw [pulseLine_high.2 (by simp only [List.length_append] at h3 ⊢; omega)] at h2
    cases h2

/-- After DISPLAY_FRAME and a load, SLEEP: no event, one, and both events before its first burst. -/
theorem witness_NoCommandWhileBusyUnderWellBehavedBusy :
    ∃ t u, exec .displayFrame (session .ready [.ok, .ok, .ok] [.low]) = .next t ∧ t.result = ⟨.ok, .none⟩ ∧ t.phase = .ready
      ∧ (fbLoad f0 t).trace = t.trace ∧ exec .sleep (fbLoad f0 t) = .next u ∧ WellBehavedBusy pulseLine u.trace
      ∧ (∀ p₁ p₂, p₁ ++ p₂ = [Event.pin .dc .low, .pin .cs .low] →
        ∃ q, u.trace = t.trace ++ (p₁ ++ p₂) ++ Event.bus [0xB3] .ok :: q)
      ∧ [Event.pin .dc .low, .pin .cs .low].any isBus = false := by
  refine ⟨_, _, rfl, by decide, by decide, by decide, rfl, pulseLine_wellBehaved 0xB2
    (.busy .low :: okTrace [(.cmd, [0xB3]), (.data, [0xC5])]) ?_, ?_, by decide⟩
  · intro n v h
    match n, h with
    | 0, h | 1, h | 2, h | 3, h | 5, h | 6, h | 7, h | 8, h | 9, h | 10, h | 11, h | 12, h => exact nomatch h
    | 4, h => cases h; exact ⟨rfl, rfl⟩
    | n + 13, h => exact nomatch h
  · intro p₁ p₂ h
    rw [h]
    exact ⟨[.pin .cs .high, .pin .dc .high, .pin .cs .low, .bus [0xC5] .ok, .pin .cs .high], by decide⟩

theorem witness_RefreshIsSeenThroughUnderWellBehavedBusy :
    ∃ t, (session .ready [.ok] [.low]).phase = .ready ∧ exec .displayFrame (session .ready [.ok] [.low]) = .next t
      ∧ t.result = ⟨.ok, .none⟩ ∧ WellBehavedBusy pulseLine t.trace := by
  refine ⟨_, by decide, rfl, by decide, pulseLine_wellBehaved 0xB2 [.busy .low] ?_⟩
  intro n v h
  match n, h with
  | 0, h | 1, h | 2, h | 3, h => exact nomatch h
  | 4, h => cases h; exact ⟨rfl, rfl⟩
  | n + 5, h => exact nomatch h

/-- A datasheet that TESTCFG matches: BUSY at most 4.5 milliseconds, so low at the last sample of five delays. -/
def testSheet : Datasheet := ⟨16, 2, testCfg.initTable, 0xB1, 0xB2, 0xB3, [0xC5], 10000, 20000, 4500, 1⟩

theorem witness_MatchingConfigurationOutlastsThePanel :
    guardPasses .displayFrame Phase.ready = true
    ∧ BusOkFor (opWindows (session .ready [.ok] []) .displayFrame).length (session .ready [.ok] []).env
    ∧ MatchingConfiguration testSheet testCfg
    ∧ KeepsBusyTime testSheet testCfg (session .ready [.ok] [.high, .high, .high, .high, .high, .low]).env := by
  refine ⟨by decide, ?_, ⟨by decide, by decide, by decide, by decide, by decide, by decide, by decide⟩, ?_⟩
  · unfold BusOkFor; decide
  · unfold KeepsBusyTime; decide

/-- The clauses with hypotheses: a table that is not empty, and an INITIALIZE no burst of which faults. -/
theorem witness_InitializeForgetsTheSession :
    (session .faulted [] []).cfg.initTable ≠ []
    ∧ ∃ t, exec .initialise (session .faulted [.ok, .ok, .ok] [.low]) = .next t ∧ t.result ≠ ⟨.hardwareInitError, .busFault⟩ :=
  ⟨by decide, _, rfl, by decide⟩

/-- An idle block in Sleeping with no request, and one in Faulted that is asked for UPDATE_FRAME. -/
theorem witness_FaultedAndSleepingAreLeftByInitializeOrReset :
    ((session .sleeping [] []).active = false ∧ (∃ t, step (session .sleeping [] []) = .next t)
      ∧ ∀ rest, (session .sleeping [] []).host ≠ .call (encode .initialise) :: rest
        ∧ (session .sleeping [] []).host ≠ .start (encode .initialise) :: rest
        ∧ (session .sleeping [] []).host ≠ .blockReset :: rest ∧ (session .sleeping [] []).host ≠ .powerCycle :: rest)
    ∧ ∀ rest, (doing (session .faulted [] []) [.call 1]).host ≠ .call (encode .initialise) :: rest := by
  refine ⟨⟨by decide, ⟨_, rfl⟩, fun rest => ⟨nofun, nofun, nofun, nofun⟩⟩, fun rest h => ?_⟩
  injection h with h
  exact absurd h (by decide)

theorem witness_UninitializedWhileInitializeRuns :
    (running .initialise .rstLow [] []).seq = some ⟨.initialise, 0, .rstLow⟩
    ∧ (running .initialise .rstLow [] []).phase = .uninitialized ∧ (running .initialise .rstLow [] []).active = true
    ∧ (microStep ⟨.initialise, 0, .rstLow⟩ (running .initialise .rstLow [] [])).active = true := by decide

/-- Every clause: a width that is refused and one that passes, a length that is refused and one that passes. -/
theorem witness_FramebufferFunctionsCheckTheirSizes :
    15 % 8 ≠ 0 ∧ 16 % 8 = 0 ∧ [0x00#8].length ≠ ((12 + 7) / 8) * 2 ∧ f0.length = ((12 + 7) / 8) * 2 := by decide

/-- Every clause: a load while an operation runs, one of the wrong length, and one of the right length. -/
theorem witness_LoadChecksTheLength :
    ((midBurst [.fbLoad f0]).host = .fbLoad f0 :: [] ∧ (midBurst [.fbLoad f0]).active = true
      ∧ (midBurst [.fbLoad f0]).seq = some ⟨.updateFrame, 0, .window .data .burst⟩ ∧ QuietHost (midBurst [.fbLoad f0])) ∧
    (doing (session .ready [] []) [.fbLoad [0]]).host = .fbLoad [0] :: [] ∧ (session .ready [] []).active = false
    ∧ [0x00#8].length ≠ testCfg.fbBytes ∧ f0.length = testCfg.fbBytes := by unfold QuietHost; decide

/-- Both clauses at the boundary: the last byte of `fb` written, and the first address beyond it. -/
theorem witness_PortWriteStoresItsBytes :
    (doing (session .ready [] []) [.memWrite 3 [7]]).host = .memWrite 3 [7] :: []
    ∧ 3 + [0x07#8].length ≤ testCfg.fbBytes ∧ testCfg.fbBytes < 4 + [0x07#8].length
    ∧ faultOf (step (doing (session .ready [] []) [.memWrite 4 [7]])) = some .fbAddress := by decide

/-- The corner pixels and the corner bits. -/
theorem witness_PixelMapIsABijection :
    testCfg.wf = true ∧ 15 < testCfg.width ∧ 1 < testCfg.height ∧ 3 < testCfg.fbBytes ∧ 7 < 8 := by decide

theorem witness_LoadedPixelsReadBack :
    (session .ready [] []).cfg.wf = true ∧ f0.length = testCfg.fbBytes ∧ 15 < testCfg.width ∧ 1 < testCfg.height := by decide

/-- State.reset meets the invariant, and a step of it answers a next state. -/
theorem witness_StepKeepsTheInvariant : Inv State.reset ∧ (∃ t, step State.reset = .next t) := by
  refine ⟨?_, ⟨_, rfl⟩⟩
  constructor <;> simp [State.reset, legalResults, Phase.isIdle, Idle, Memory.wf, Memory.below]

/-- A running state meets it as well: UPDATE_FRAME in the middle of its data burst. -/
theorem witness_Inv_running : Inv (midBurst []) := by
  refine ⟨by decide, by decide, by decide, nofun, nofun, nofun, nofun, nofun, fun _ => ⟨_, rfl, ?_⟩, nofun⟩
  exact ⟨by decide, by decide, by simp [LinesAt]; decide, by simp [TblIdxAt]; decide, ⟨1, by decide, by decide⟩,
    by simp [PollCntAt]; decide, by simp [BurstNotEmpty]; decide, by decide⟩

theorem witness_StepAlwaysAnswers :
    Inv State.reset ∧ ∀ addr v rest, State.reset.host = .memWrite addr v :: rest → State.reset.active = false →
      addr + v.length ≤ State.reset.cfg.fbBytes :=
  ⟨witness_StepKeepsTheInvariant.1, nofun⟩

theorem witness_SmallStepsReachTheBigStep : Idle (session .ready [] []) ∧ Idle State.reset := by unfold Idle; decide

/-- A reset that comes later, behind an idle step, is no reset now. -/
theorem witness_OnlyResetCutsAnOperation :
    (midBurst [.call 0, .idle, .blockReset]).active = true
    ∧ (midBurst [.call 0, .idle, .blockReset]).seq = some ⟨.updateFrame, 0, .window .data .burst⟩
    ∧ QuietHost (midBurst [.call 0, .idle, .blockReset]) ∧ (∃ t, step (midBurst [.call 0, .idle, .blockReset]) = .next t) := by
  refine ⟨by decide, by decide, ?_, ⟨_, rfl⟩⟩
  unfold QuietHost; decide

/-- Two quiet steps, an operation word held off. -/
theorem witness_QuietHostNeverCutsAnOperation :
    (midBurst [.call 0]).active = true ∧ (midBurst [.call 0]).seq = some ⟨.updateFrame, 0, .window .data .burst⟩
    ∧ QuietRun 2 (midBurst [.call 0]) := by
  refine ⟨by decide, by decide, fun m hm t h => ?_⟩
  match m, hm, h with
  | 0, _, h => cases h; unfold QuietHost; decide
  | 1, _, h => cases h; unfold QuietHost; decide

/-- A bus and a BUSY line that stay well for as long as RECOVER takes, from Faulted; SHOW's extra premise, from Ready. -/
theorem witness_RecoverShowsTheLoadedFrame :
    (session .faulted [] []).active = false ∧ f0.length = testCfg.fbBytes
    ∧ BusOkFor ((tableWindows testCfg.initTable).length + 3) (session .faulted [.ok, .ok, .ok, .ok, .ok, .ok] []).env
    ∧ ResponsiveFor (2 * testCfg.nPollMax + 3) testCfg (session .faulted [] (List.replicate 13 .low)).env
    ∧ (session .ready [] []).phase = .ready := by
  unfold BusOkFor ResponsiveFor; decide

end Sys2Proof.Tests
end

-- ==== The two granularities agree (R6) ====
section
/-! PROOFS. The two granularities of R6 agree: the small steps of each operation, from its acceptance, reach what its body gives.
The parts of an operation are Laws/SmallSteps.lean's; here they are put together, one lemma per operation. -/

namespace Sys2Proof.Machine

/-- The result named by projections, as the `…Body_eq` lemmas have it. -/
theorem afterWait_eq (op : Instr) (w : WaitResult × State) :
    afterWait op w = match w.1 with
      | .timeout => waitFailed op w.2
      | .ok => waitPassed op w.2 := by
  obtain ⟨_ | _, s⟩ := w <;> rfl

/-- The result named by projections, as `initialiseBody_eq` has it. -/
theorem afterTable_eq (p : BusOutcome × State) :
    afterTable p = match p.1 with
      | .fault _ => burstFailed .initialise p.2
      | .ok => afterWait .initialise (busyWait p.2) := by
  obtain ⟨_ | _, s⟩ := p <;> rfl

theorem Going.sendCommand {s : State} (g : Going s) (c : Byte) : Going (sendCommand c s).2 :=
  ⟨by simp [g.active], by simp [g.done], by simp [g.host]⟩

theorem Going.sendData {s : State} (g : Going s) (bs : List Byte) : Going (sendData bs s).2 :=
  ⟨by simp [g.active], by simp [g.done], by simp [g.host]⟩

/-- The bring-up of INITIALIZE (R77, R80): five small steps lead from acceptance to the first entry of the init table. -/
theorem Reaches.bringUp (s : State) (g : Going s) :
    Reaches (firstPos .initialise s) (enterEntry ⟨.initialise, s.trace.length, .rstHighWait⟩
      ((resetPulse (pinWrite .cs .high (s.withPhase .uninitialized))).withTblIdx (some 0))) := by
  have going {t : State} (ha : t.active = s.active) (hd : t.done = s.done) (hh : t.host = s.host) : Going t :=
    ⟨ha.trans g.active, hd.trans g.done, hh.trans g.host⟩
  refine .one (q := ⟨.initialise, s.trace.length, .csIdle⟩) (going rfl rfl rfl) rfl ?_
  refine .one (q := ⟨.initialise, s.trace.length, .rstLow⟩) (going rfl rfl rfl) rfl ?_
  refine .one (q := ⟨.initialise, s.trace.length, .rstLowWait⟩) (going rfl rfl rfl) rfl ?_
  refine .one (q := ⟨.initialise, s.trace.length, .rstHigh⟩) (going rfl rfl rfl) rfl ?_
  refine .one (q := ⟨.initialise, s.trace.length, .rstHighWait⟩) (going rfl rfl rfl) rfl ?_
  -- The state differs from the body's only in the position, which is overwritten.
  rw [← enterEntry_withSeq _ (some ⟨.initialise, s.trace.length, .rstHighWait⟩)]
  exact .refl _

/-- INITIALIZE: the bring-up, then the table and the busy-wait (R80, R82). -/
theorem Reaches.initialise (s : State) (g : Going s) : Reaches (firstPos .initialise s) (initialiseBody s) := by
  refine (Reaches.bringUp s g).trans ?_
  have h := Reaches.table s.trace.length s.cfg.initTable .rstHighWait 0
    ((resetPulse (pinWrite .cs .high (s.withPhase .uninitialized))).withTblIdx (some 0))
    ⟨g.active, g.done, g.host⟩ rfl rfl
  rw [afterTable_eq, afterWait_eq] at h
  rw [initialiseBody_eq]
  exact h

/-- UPDATE_FRAME: the command, the frame, the busy-wait (R85, R86). -/
theorem Reaches.updateFrame (s : State) (g : Going s) : Reaches (firstPos .updateFrame s) (updateFrameBody s) := by
  have g₁ : Going (s.withPhase .transferringFrame) := ⟨g.active, g.done, g.host⟩
  refine (Reaches.command .updateFrame s.trace.length .csIdle s.cfg.cmdWriteRam _ g₁ rfl).trans ?_
  rw [updateFrameBody_eq]
  dsimp only [State.withPhase_cfg]
  have g₂ := g₁.sendCommand s.cfg.cmdWriteRam
  generalize sendCommand s.cfg.cmdWriteRam (s.withPhase .transferringFrame) = p at g₂ ⊢
  obtain ⟨_ | k, t⟩ := p
  case fault => exact .refl _
  case ok =>
    refine (Reaches.data .updateFrame s.trace.length (.window .cmd .dc) t g₂).trans ?_
    -- The body takes the frame before it is sent, the sequencer once it is sent.
    have hframe : frame (sendData (frame t) t).2 = frame t := frame_congr (by simp) (by simp) (by simp)
    have g₃ := g₂.sendData (frame t)
    dsimp only [burstBytes]
    generalize sendData (frame t) t = d at hframe g₃ ⊢
    obtain ⟨_ | k, u⟩ := d
    case fault => exact .refl _
    case ok =>
      dsimp only [afterWindow, dataSent] at hframe ⊢
      rw [hframe]
      have h := Reaches.wait .updateFrame s.trace.length (.window .cmd .dc) (setPanelRam (.bytes (frame t)) u)
        ⟨g₃.active, g₃.done, g₃.host⟩
      rw [afterWait_eq] at h
      exact h

/-- DISPLAY_FRAME: the command, then the busy-wait in phase Refreshing (R90, R91). -/
theorem Reaches.displayFrame (s : State) (g : Going s) : Reaches (firstPos .displayFrame s) (displayFrameBody s) := by
  refine (Reaches.command .displayFrame s.trace.length .csIdle s.cfg.cmdRefresh s g rfl).trans ?_
  rw [displayFrameBody_eq]
  dsimp only
  have g₁ := g.sendCommand s.cfg.cmdRefresh
  generalize sendCommand s.cfg.cmdRefresh s = p at g₁ ⊢
  obtain ⟨_ | k, t⟩ := p
  case fault => exact .refl _
  case ok =>
    have h := Reaches.wait .displayFrame s.trace.length (.window .cmd .dc) (t.withPhase .refreshing)
      ⟨g₁.active, g₁.done, g₁.host⟩
    rw [afterWait_eq] at h
    exact h

/-- SLEEP: the command and the check code (R95, R96). -/
theorem Reaches.sleep (s : State) (g : Going s) : Reaches (firstPos .sleep s) (sleepBody s) := by
  refine (Reaches.command .sleep s.trace.length .csIdle s.cfg.cmdSleep s g rfl).trans ?_
  rw [sleepBody_eq]
  dsimp only
  have g₁ := g.sendCommand s.cfg.cmdSleep
  generalize sendCommand s.cfg.cmdSleep s = p at g₁ ⊢
  obtain ⟨_ | k, t⟩ := p
  case fault => exact .refl _
  case ok =>
    refine (Reaches.data .sleep s.trace.length (.window .cmd .dc) t g₁).trans ?_
    dsimp only [burstBytes]
    generalize sendData t.cfg.sleepParams t = d
    obtain ⟨_ | k, u⟩ := d
    case fault => exact .refl _
    case ok => exact .refl _

/-- The small steps of an accepted operation reach what its body gives. -/
theorem Reaches.body (i : Instr) (s : State) (g : Going s) : Reaches (firstPos i s) (bodyOf i s) :=
  match i with
  | .initialise   => Reaches.initialise s g
  | .updateFrame  => Reaches.updateFrame s g
  | .displayFrame => Reaches.displayFrame s g
  | .sleep        => Reaches.sleep s g

/-- From acceptance on, refused or not: the small steps reach what the guard makes of the body. -/
theorem Reaches.ofAcceptance (i : Instr) (s : State) (hd : s.done = false) (hh : s.host = []) :
    Reaches (startOp i s) (opGuard i (bodyOf i) s) := by
  unfold startOp
  cases h : guardPasses i s.phase with
  | false => rw [opGuard_refuses h, opGuard_refuses h]; exact .refl _
  | true => rw [opGuard_passes h, opGuard_passes h]; exact Reaches.body i _ ⟨rfl, hd, hh⟩

/-- Settles O53: acceptance is the first small step, and a chain of small steps is a run of the machine. -/
theorem smallStepsReachTheBigStep : Obligations.SmallStepsReachTheBigStep := by
  unfold Obligations.SmallStepsReachTheBigStep
  intro s w ⟨hactive, _⟩
  let s₀ := (s.withDone false).withHost []
  have hstart : step (s.withHost [.start w]) = .next (startOp (decode w) s₀) :=
    step_idle (s := s.withHost [.start w]) hactive rfl
  have hcall : step (s.withHost [.call w]) = .next (opGuard (decode w) (bodyOf (decode w)) s₀) :=
    (step_idle (s := s.withHost [.call w]) hactive rfl).trans (exec_eq (decode w) s₀)
  obtain ⟨n, hn, hm⟩ := (Reaches.ofAcceptance (decode w) s₀ rfl rfl).run
  refine ⟨n, (run_next hstart).trans (hn.trans hcall.symm), fun m hlt => ?_⟩
  rw [run_next hstart]
  exact hm m hlt

end Sys2Proof.Machine
end

-- ==== The invariant of the machine (R12, R15, R16, R139) ====
section
/-! PROOFS. The invariant of the machine holds at reset and every step keeps it. A step of an operation leaves the block at a position
of its pseudocode or between operations (`Standing`): one lemma per part of a small step, and one for an operation run whole; then
the host's actions one by one. -/

namespace Sys2Proof.Machine

/-! ## States that satisfy the invariant -/

/-- Every field of the block at the value of R21: whatever is outside the block, the invariant holds. -/
theorem Inv.ofResetValues (panel : Panel) (cfg : Cfg) (trace : List Event) (env : Env) (fbEpoch : Nat)
    (host : List HostAction) (loadErr : Err) :
    Inv { State.reset with panel, cfg, trace, env, fbEpoch, host, loadErr } where
  fbCanonical := .nil
  fbExists := nofun
  resultLegal := List.mem_cons_self
  idlePhase _ := rfl
  idleDead _ := ⟨rfl, rfl, rfl, rfl, rfl⟩
  readyLow _ := nofun
  idleLines _ h := absurd rfl h
  undriven _ _ := ⟨rfl, rfl, rfl, rfl⟩
  running := nofun
  doneIdle := nofun

/-- An idle block that kept its phase, its lines and its last sample still satisfies the invariant. -/
theorem Inv.ofIdle {s t : State} (h : Inv s) (ha : s.active = false) (hidle : Idle t) (hphase : t.phase = s.phase)
    (hlines : t.cs = s.cs ∧ t.dc = s.dc ∧ t.rst = s.rst) (hbusy : t.lastBusy = s.lastBusy)
    (hfb : t.fb.wf ∧ t.fb.below t.cfg.fbBytes) (hresult : t.result ∈ legalResults) : Inv t := by
  obtain ⟨hcs, hdc, hrst⟩ := hlines
  constructor
  case fbCanonical => exact hfb.1
  case fbExists => exact hfb.2
  case resultLegal => exact hresult
  case idlePhase => rw [hphase]; exact fun _ => h.idlePhase ha
  case idleDead => exact fun _ => hidle
  case readyLow => rw [hphase, hbusy]; exact fun _ => h.readyLow ha
  case idleLines => rw [hphase, hcs, hrst]; exact fun _ => h.idleLines ha
  case undriven => rw [hphase, hcs, hdc, hrst, hbusy]; exact fun _ => h.undriven ha
  case running => exact fun ht => absurd hidle.1 (by simp [ht])
  case doneIdle => exact fun _ => hidle.1

/-- Between operations neither CHIP SELECT nor RESET is low. -/
theorem Inv.idle_lines_not_low {s : State} (h : Inv s) (ha : s.active = false) : s.cs ≠ some .low ∧ s.rst ≠ some .low := by
  by_cases hp : s.phase = .uninitialized
  · obtain ⟨hcs, -, hrst, -⟩ := h.undriven ha hp
    simp [hcs, hrst]
  · obtain ⟨hcs, hrst⟩ := h.idleLines ha hp
    simp [hcs, hrst]

/-- The done pulse falls and the host's list moves on: the invariant does not depend on them. -/
theorem Inv.nextHost {s : State} (h : Inv s) (l : List HostAction) : Inv ((s.withDone false).withHost l) :=
  ⟨h.fbCanonical, h.fbExists, h.resultLegal, h.idlePhase, h.idleDead, h.readyLow, h.idleLines, h.undriven,
    fun ha => by
      obtain ⟨q, hq, r⟩ := h.running ha
      exact ⟨q, hq, r.position, r.phase, r.lines, r.tblIdx, r.byteIdx, r.pollCnt, r.burst, r.start⟩,
    nofun⟩

/-- Where a step of an operation can leave the block: at a position of its pseudocode, or between operations with CHIP SELECT and
RESET high, BUSY last seen low if the phase is Ready. -/
inductive Standing (t : State) : Prop where
  | running (q : Seq) (hseq : t.seq = some q) (hactive : t.active = true) (h : Running q t)
  | resting (hidle : Idle t) (hphase : t.phase.isIdle = true) (hinit : t.phase ≠ .uninitialized)
      (hlow : t.phase = .ready → t.lastBusy = some .low) (hcs : t.cs = some .high) (hrst : t.rst = some .high)

/-- A step of an operation keeps the invariant if it leaves the block where it can stand. -/
theorem Inv.ofStanding {s t : State} (h : Inv s) (hfb : t.fb = s.fb) (hcfg : t.cfg = s.cfg) (hresult : t.result ∈ legalResults)
    (hdone : t.done = true → t.active = false) (ht : Standing t) : Inv t := by
  have hwf : t.fb.wf := hfb ▸ h.fbCanonical
  have hbelow : t.fb.below t.cfg.fbBytes := by rw [hfb, hcfg]; exact h.fbExists
  cases ht with
  | running q hseq hactive r =>
    have hno {P : Prop} (ha : t.active = false) : P := absurd hactive (by simp [ha])
    exact ⟨hwf, hbelow, hresult, hno, hno, hno, hno, hno, fun _ => ⟨q, hseq, r⟩, hdone⟩
  | resting hidle hphase hinit hlow hcs hrst =>
    exact ⟨hwf, hbelow, hresult, fun _ => hphase, fun _ => hidle, fun _ => hlow, fun _ _ => ⟨hcs, hrst⟩,
      fun _ hp => absurd hp hinit, fun ha => absurd hidle.1 (by simp [ha]), hdone⟩

/-! ## The ends of an operation -/

theorem Standing.complete {p : Phase} {s : State} (hp : p.isIdle = true) (hinit : p ≠ .uninitialized)
    (hlow : p = .ready → s.lastBusy = some .low) (hcs : s.cs = some .high) (hrst : s.rst = some .high) :
    Standing (complete p s) :=
  .resting ⟨rfl, rfl, rfl, rfl, rfl⟩ hp hinit hlow hcs hrst

theorem Standing.raise {e : Err} {c : Cause} {s : State} (hcs : s.cs = some .high) (hrst : s.rst = some .high) :
    Standing (raise e c s) :=
  .resting ⟨rfl, rfl, rfl, rfl, rfl⟩ rfl nofun nofun hcs hrst

theorem Standing.burstFailed (op : Instr) {s : State} (hcs : s.cs = some .high) (hrst : s.rst = some .high) :
    Standing (burstFailed op s) := by cases op <;> exact .raise hcs hrst

theorem Standing.waitFailed (op : Instr) {s : State} (hcs : s.cs = some .high) (hrst : s.rst = some .high) :
    Standing (waitFailed op s) := by cases op <;> exact .raise hcs hrst

theorem Standing.waitPassed (op : Instr) {s : State} (hlow : s.lastBusy = some .low) (hcs : s.cs = some .high)
    (hrst : s.rst = some .high) : Standing (waitPassed op s) := by
  cases op <;> exact .complete rfl nofun (fun _ => hlow) hcs hrst

/-! ## Between two windows -/

/-- A running block outside every window, with no counter of a burst or a busy-wait alive. -/
structure Between (q : Seq) (s : State) : Prop where
  active  : s.active = true
  cs      : s.cs = some .high
  rst     : s.rst = some .high
  byteIdx : s.byteIdx = none
  pollCnt : s.pollCnt = none
  start   : q.start ≤ s.trace.length

/-- A window that has bytes to send can be opened. -/
theorem Between.standing_openWindow {q : Seq} {s : State} (b : Between q s) (k : WireKind) (hpos : posAllowed q.op (.window k .dc))
    (hphase : s.phase = phaseAt q.op (.window k .dc)) (htbl : TblIdxAt s q.op (.window k .dc))
    (hburst : burstBytes q.op k s ≠ []) : Standing (goto q (.window k .dc) s) :=
  .running _ rfl b.active ⟨hpos, hphase, ⟨b.rst, b.cs⟩, htbl, b.byteIdx, b.pollCnt, hburst, b.start⟩

/-- The window of a command byte is never empty. -/
theorem burstBytes_cmd_ne_nil (op : Instr) (s : State) : burstBytes op .cmd s ≠ [] := by cases op <;> exact nofun

/-- A busy-wait can be entered. -/
theorem Between.standing_startPoll {q : Seq} {s : State} (b : Between q s) (hpos : posAllowed q.op .sample)
    (hphase : s.phase = phaseAt q.op .sample) (htbl : TblIdxAt s q.op .sample) : Standing (startPoll q s) :=
  .running _ rfl b.active
    ⟨hpos, hphase, ⟨b.rst, b.cs⟩, htbl, b.byteIdx, ⟨0, Nat.zero_le _, rfl⟩, trivial, b.start⟩

/-- INITIALIZE stands at the entry `tbl_idx` of its table, or, past the last one, in its busy-wait. -/
theorem Between.standing_enterEntry {st n : Nat} {p : Pos} {s : State} (b : Between ⟨.initialise, st, p⟩ s)
    (hphase : s.phase = .uninitialized) (htbl : s.tblIdx = some n) (hn : n ≤ s.cfg.initTable.length) :
    Standing (enterEntry ⟨.initialise, st, p⟩ s) := by
  unfold enterEntry
  rw [htbl, Option.getD_some]
  split
  · exact b.standing_openWindow .cmd rfl hphase ⟨n, ‹_›, htbl⟩ (burstBytes_cmd_ne_nil _ s)
  · exact b.standing_startPoll rfl hphase (htbl.trans (congrArg some (by omega)))

/-- What follows a delivered data block; DISPLAY_FRAME has none. -/
theorem Between.standing_dataSent {q : Seq} {s : State} (b : Between q s) (hpos : posAllowed q.op (.window .data .dc))
    (hphase : s.phase = phaseAt q.op (.window .data .dc)) (htbl : TblIdxAt s q.op (.window .data .dc)) :
    Standing (dataSent q s) := by
  obtain ⟨op, st, p⟩ := q
  cases op with
  | initialise =>
    obtain ⟨n, hn, hs⟩ := htbl
    have b' : Between ⟨.initialise, st, p⟩ (countEntry s) := ⟨b.active, b.cs, b.rst, b.byteIdx, b.pollCnt, b.start⟩
    exact b'.standing_enterEntry (n := n + 1) hphase (by simp [hs]) hn
  | updateFrame =>
    have b' : Between ⟨.updateFrame, st, p⟩ (setPanelRam (.bytes (frame s)) s) :=
      ⟨b.active, b.cs, b.rst, b.byteIdx, b.pollCnt, b.start⟩
    exact b'.standing_startPoll rfl hphase htbl
  | displayFrame => exact nomatch hpos
  | sleep => exact .complete rfl nofun nofun b.cs b.rst

/-- The window of a data block, or what follows it when it is empty. -/
theorem Between.standing_startData {q : Seq} {s : State} (b : Between q s) (hpos : posAllowed q.op (.window .data .dc))
    (hphase : s.phase = phaseAt q.op (.window .data .dc)) (htbl : TblIdxAt s q.op (.window .data .dc)) :
    Standing (startData q s) := by
  unfold startData
  split
  · exact b.standing_dataSent hpos hphase htbl
  · exact b.standing_openWindow .data hpos hphase htbl (by simp_all)

/-- What follows a delivered command byte. -/
theorem Between.standing_commandSent {q : Seq} {s : State} (b : Between q s)
    (hphase : s.phase = phaseAt q.op (.window .cmd .dc)) (htbl : TblIdxAt s q.op (.window .cmd .dc)) :
    Standing (commandSent q s) := by
  obtain ⟨op, st, p⟩ := q
  cases op with
  | initialise => exact b.standing_startData rfl hphase htbl
  | updateFrame => exact b.standing_startData rfl hphase htbl
  | displayFrame =>
    have b' : Between ⟨.displayFrame, st, p⟩ (s.withPhase .refreshing) :=
      ⟨b.active, b.cs, b.rst, b.byteIdx, b.pollCnt, b.start⟩
    exact b'.standing_startPoll rfl rfl htbl
  | sleep => exact b.standing_startData rfl hphase htbl

/-! ## The small steps -/

/-- A sample and the answer it read. -/
theorem sampleBusy_eq {v : Level} {s : State} (h : s.env.busyAt 0 = v) : sampleBusy s = (v, (sampleBusy s).2) :=
  Prod.ext (by simp [h]) rfl

theorem sampleStep_low {q : Seq} {s : State} (h : s.env.busyAt 0 = .low) :
    sampleStep q s = waitPassed q.op (sampleBusy s).2 := by rw [sampleStep, sampleBusy_eq h]

theorem sampleStep_high {q : Seq} {s : State} (h : s.env.busyAt 0 = .high) :
    sampleStep q s = if s.pollCnt.getD 0 < s.cfg.nPollMax then goto q .pollDelay (sampleBusy s).2
      else waitFailed q.op (sampleBusy s).2 := by rw [sampleStep, sampleBusy_eq h]; rfl

/-- No more bytes of a burst are handed over than it has (R72). -/
theorem burstTarget_le {len : Nat} (h : 0 < len) (r : BusOutcome) : burstTarget len (legalOutcome len r) ≤ len := by
  cases r with
  | ok => exact le_refl _
  | fault k => exact (Nat.mod_lt k h).le

theorem trace_length_le_microStep (q : Seq) (s : State) : s.trace.length ≤ (microStep q s).trace.length := by
  rcases microStep_trace q s with h | ⟨e, h⟩ <;> simp [h]

/-- Inside a window the lines and `byte_idx` change, and nothing else that a running operation's position fixes. -/
theorem Running.inWindow {op : Instr} {st : Nat} {k : WireKind} {w w' : WinPos} {s t : State}
    (r : Running ⟨op, st, .window k w⟩ s) (hout : Outside s t) (hphase : t.phase = s.phase) (htbl : t.tblIdx = s.tblIdx)
    (hpoll : t.pollCnt = s.pollCnt) (htrace : s.trace.length ≤ t.trace.length) (hlines : LinesAt t (.window k w'))
    (hbyte : ByteIdxAt t op (.window k w')) : Running ⟨op, st, .window k w'⟩ t where
  position := by have := r.position; cases op <;> cases k <;> exact this
  phase := by rw [hphase, r.phase]; cases op <;> rfl
  lines := hlines
  tblIdx := by
    have := r.tblIdx
    cases op
    case initialise => simpa only [TblIdxAt, htbl, hout.cfg] using this
    all_goals exact htbl.trans this
  byteIdx := hbyte
  pollCnt := hpoll.trans r.pollCnt
  burst := by simpa only [BurstNotEmpty, burstBytes_congr hout.cfg hout.fb hout.fbEpoch htbl] using r.burst
  start := r.start.trans htrace

/-- A position of a window (R73, R74). -/
theorem Running.standing_windowStep {op : Instr} {st : Nat} {k : WireKind} {w : WinPos} {s : State}
    (hq : s.seq = some ⟨op, st, .window k w⟩) (ha : s.active = true) (r : Running ⟨op, st, .window k w⟩ s) :
    Standing (windowStep ⟨op, st, .window k w⟩ k w s) := by
  have hout : Outside s (windowStep ⟨op, st, .window k w⟩ k w s) := microStep_outside ⟨op, st, .window k w⟩ s
  have htrace : s.trace.length ≤ (windowStep ⟨op, st, .window k w⟩ k w s).trace.length :=
    trace_length_le_microStep ⟨op, st, .window k w⟩ s
  have hlines := r.lines
  cases w with
  | dc =>
    exact .running _ rfl ha (r.inWindow hout rfl rfl rfl htrace ⟨hlines.1, hlines.2, rfl⟩ r.byteIdx)
  | csLow =>
    obtain ⟨hrst, -, hdc⟩ := hlines
    exact .running _ rfl ha (r.inWindow hout rfl rfl rfl htrace ⟨hrst, rfl, hdc⟩ ⟨0, Nat.zero_le _, rfl⟩)
  | burst =>
    obtain ⟨n, hn, hb⟩ := r.byteIdx
    have hne : burstBytes op k s ≠ [] := r.burst
    have htarget := burstTarget_le (List.length_pos_iff.2 hne) (s.env.busAt 0)
    simp only [windowStep, burstStep, Env.nextBus_eq, hb, Option.getD_some] at hout htrace ⊢
    split at hout
    · next hlt =>
      rw [if_pos hlt] at htrace ⊢
      refine .running _ hq ha (r.inWindow hout rfl rfl rfl htrace hlines ⟨n + 1, ?_, rfl⟩)
      have hbytes : burstBytes op k (s.withByteIdx (some (n + 1))) = burstBytes op k s := burstBytes_congr rfl rfl rfl rfl
      rw [hbytes]
      omega
    · next hge =>
      rw [if_neg hge] at htrace ⊢
      exact .running _ rfl ha (r.inWindow hout rfl rfl rfl htrace hlines rfl)
  | csHigh o =>
    have b : Between ⟨op, st, .window k (.csHigh o)⟩ (pinWrite .cs .high s) :=
      ⟨ha, rfl, hlines.1, r.byteIdx, r.pollCnt, r.start.trans (by simp)⟩
    have hphase : s.phase = phaseAt op (.window k .dc) := r.phase.trans (by cases op <;> rfl)
    have htbl : TblIdxAt s op (.window k .dc) := by have := r.tblIdx; cases op <;> exact this
    cases o with
    | fault j => cases k <;> exact .burstFailed op rfl hlines.1
    | ok =>
      cases k with
      | cmd => exact b.standing_commandSent hphase htbl
      | data => exact b.standing_dataSent (by have := r.position; cases op <;> exact this) hphase htbl

/-- A sample of a busy-wait (R76). -/
theorem Running.standing_sampleStep {op : Instr} {st : Nat} {s : State} (ha : s.active = true) (r : Running ⟨op, st, .sample⟩ s) :
    Standing (sampleStep ⟨op, st, .sample⟩ s) := by
  obtain ⟨hrst, hcs⟩ := r.lines
  obtain ⟨n, hn, hp⟩ := r.pollCnt
  cases hb : s.env.busyAt 0 with
  | low =>
    rw [sampleStep_low hb]
    exact .waitPassed op (by simp [hb]) hcs hrst
  | high =>
    rw [sampleStep_high hb, hp, Option.getD_some]
    split
    · refine .running _ rfl ha ⟨?_, ?_, ⟨hrst, hcs⟩, ?_, r.byteIdx, ⟨n, ‹_›, hp⟩, trivial, r.start.trans (by simp)⟩
      · have := r.position; cases op <;> exact this
      · exact r.phase.trans (by cases op <;> rfl)
      · have := r.tblIdx; cases op <;> exact this
    · exact .waitFailed op hcs hrst

/-- The delay after a high sample (R76). -/
theorem Running.afterPollDelay {op : Instr} {st : Nat} {s : State} (r : Running ⟨op, st, .pollDelay⟩ s) :
    Running ⟨op, st, .sample⟩ (microStep ⟨op, st, .pollDelay⟩ s) := by
  obtain ⟨n, hn, hp⟩ := r.pollCnt
  refine ⟨?_, ?_, r.lines, ?_, r.byteIdx, ⟨n + 1, hn, by simp [microStep, hp]⟩, trivial, r.start.trans (by simp [microStep])⟩
  · have := r.position; cases op <;> exact this
  · exact r.phase.trans (by cases op <;> rfl)
  · have := r.tblIdx; cases op <;> exact this

/-- The positions before the first window are INITIALIZE's alone (R80). -/
theorem posAllowed_bringUp {op : Instr} :
    ∀ p ∈ [Pos.csIdle, .rstLow, .rstLowWait, .rstHigh, .rstHighWait], posAllowed op p = true → op = .initialise := by
  cases op <;> decide

/-- Every small step of an operation leaves the block where it can stand. -/
theorem Running.standing_microStep {q : Seq} {s : State} (hq : s.seq = some q) (ha : s.active = true) (r : Running q s) :
    Standing (microStep q s) := by
  have htrace := r.start.trans (trace_length_le_microStep q s)
  obtain ⟨op, st, p⟩ := q
  cases p with
  | window k w => exact r.standing_windowStep hq ha
  | sample => exact r.standing_sampleStep ha
  | pollDelay => exact .running _ rfl ha r.afterPollDelay
  | csIdle =>
    obtain rfl := posAllowed_bringUp .csIdle (by decide) r.position
    exact .running _ rfl ha ⟨rfl, r.phase, ⟨rfl, r.lines.2⟩, r.tblIdx, r.byteIdx, r.pollCnt, trivial, htrace⟩
  | rstLow =>
    obtain rfl := posAllowed_bringUp .rstLow (by decide) r.position
    exact .running _ rfl ha ⟨rfl, r.phase, ⟨r.lines.1, rfl⟩, r.tblIdx, r.byteIdx, r.pollCnt, trivial, htrace⟩
  | rstLowWait =>
    obtain rfl := posAllowed_bringUp .rstLowWait (by decide) r.position
    exact .running _ rfl ha ⟨rfl, r.phase, r.lines, r.tblIdx, r.byteIdx, r.pollCnt, trivial, htrace⟩
  | rstHigh =>
    obtain rfl := posAllowed_bringUp .rstHigh (by decide) r.position
    exact .running _ rfl ha ⟨rfl, r.phase, ⟨r.lines.1, rfl⟩, r.tblIdx, r.byteIdx, r.pollCnt, trivial, htrace⟩
  | rstHighWait =>
    obtain rfl := posAllowed_bringUp .rstHighWait (by decide) r.position
    have b : Between ⟨.initialise, st, .rstHighWait⟩ ((delay s.cfg.tResetHighUs s).withTblIdx (some 0)) :=
      ⟨ha, r.lines.1, r.lines.2, r.byteIdx, r.pollCnt, r.start.trans (by simp)⟩
    exact b.standing_enterEntry r.phase rfl (Nat.zero_le _)

/-! ## Acceptance, and operations run whole -/

/-- A block that accepts an operation word in Ready stands as between two windows. -/
theorem Inv.betweenOfReady {s : State} (h : Inv s) (ha : s.active = false) (hready : s.phase = .ready) (i : Instr) :
    Between ⟨i, s.trace.length, .csIdle⟩ (s.withActive true) := by
  obtain ⟨-, -, -, hbyte, hpoll⟩ := h.idleDead ha
  obtain ⟨hcs, hrst⟩ := h.idleLines ha (by simp [hready])
  exact ⟨rfl, hcs, hrst, hbyte, hpoll, le_refl _⟩

/-- An operation that passes its guard stands at its first position (R79, R81, R85, D17). -/
theorem Inv.standing_firstPos {s : State} (h : Inv s) (ha : s.active = false) (i : Instr) (hg : guardPasses i s.phase = true) :
    Standing (firstPos i (s.withActive true)) := by
  obtain ⟨-, -, htbl, hbyte, hpoll⟩ := h.idleDead ha
  have hready (hi : i ≠ .initialise) : s.phase = .ready := by simpa [guardPasses, hi] using hg
  cases i with
  | initialise =>
    exact .running _ rfl rfl ⟨rfl, rfl, h.idle_lines_not_low ha, htbl, hbyte, hpoll, trivial, le_refl _⟩
  | updateFrame =>
    have b := h.betweenOfReady ha (hready nofun) .updateFrame
    have b' : Between ⟨.updateFrame, s.trace.length, .csIdle⟩ ((s.withActive true).withPhase .transferringFrame) :=
      ⟨b.active, b.cs, b.rst, b.byteIdx, b.pollCnt, b.start⟩
    exact b'.standing_openWindow .cmd rfl rfl htbl (burstBytes_cmd_ne_nil _ _)
  | displayFrame =>
    have b := h.betweenOfReady ha (hready nofun) .displayFrame
    exact b.standing_openWindow .cmd rfl (hready nofun) htbl (burstBytes_cmd_ne_nil _ _)
  | sleep =>
    have b := h.betweenOfReady ha (hready nofun) .sleep
    exact b.standing_openWindow .cmd rfl (hready nofun) htbl (burstBytes_cmd_ne_nil _ _)

/-- A refusal keeps the invariant (R79). -/
theorem Inv.refuse {s : State} (h : Inv s) (ha : s.active = false) : Inv (refuse (s.withActive true)) :=
  h.ofIdle ha ⟨rfl, rfl, rfl, rfl, rfl⟩ rfl ⟨rfl, rfl, rfl⟩ rfl ⟨h.fbCanonical, h.fbExists⟩ (by simp [legalResults])

/-- The acceptance of an operation word, refused or not, keeps the invariant. -/
theorem Inv.startOp {s : State} (h : Inv s) (ha : s.active = false) (hd : s.done = false) (i : Instr) : Inv (startOp i s) := by
  unfold Machine.startOp
  cases hg : guardPasses i s.phase with
  | false => rw [opGuard_refuses hg]; exact h.refuse ha
  | true =>
    rw [opGuard_passes hg]
    have hsame : (firstPos i (s.withActive true)).fb = s.fb ∧ (firstPos i (s.withActive true)).cfg = s.cfg
        ∧ (firstPos i (s.withActive true)).result = s.result
        ∧ (firstPos i (s.withActive true)).done = s.done := by cases i <;> exact ⟨rfl, rfl, rfl, rfl⟩
    obtain ⟨hfb, hcfg, hresult, hdone⟩ := hsame
    exact h.ofStanding hfb hcfg (hresult ▸ h.resultLegal) (by simp [hdone, hd]) (h.standing_firstPos ha i hg)

/-- An operation run whole ends between operations, with CHIP SELECT and RESET high. -/
theorem OpEnd.standing {i : Instr} {s t : State} (e : OpEnd i s t) (f : OpFrame i s t) (hrst : t.rst = some .high) : Standing t := by
  cases e with
  | completed w hbus hw htrace hresult hphase hdc hnil hbusy =>
    refine .resting f.idle ?_ ?_ ?_ f.cs hrst <;> rw [hphase]
    · cases i <;> rfl
    · cases i <;> exact nofun
    · intro hready
      rw [hbusy, if_neg (by rintro rfl; cases hready)]
  | faulted j k v hv hbus hk htrace hresult hphase =>
    exact .resting f.idle (by rw [hphase]; rfl) (by simp [hphase]) (by simp [hphase]) f.cs hrst
  | timedOut hsleep hbus hw htrace hresult hphase =>
    exact .resting f.idle (by rw [hphase]; rfl) (by simp [hphase]) (by simp [hphase]) f.cs hrst

/-- The results an operation that passed its guard can end with are legal ones (R57). -/
theorem OpEnd.result_legal {i : Instr} {s t : State} (e : OpEnd i s t) : t.result ∈ legalResults := by
  cases e with
  | completed w hbus hw htrace hresult => rw [hresult]; decide
  | faulted j k v hv hbus hk htrace hresult => rw [hresult]; cases i <;> decide
  | timedOut hsleep hbus hw htrace hresult => rw [hresult]; cases i <;> decide

/-- An operation run whole keeps the invariant. -/
theorem Inv.exec {s t : State} (h : Inv s) (ha : s.active = false) {i : Instr} (ht : exec i s = .next t) : Inv t := by
  rcases exec_cases ht with ⟨-, rfl⟩ | ⟨hg, e, f⟩
  · exact h.refuse ha
  · have hrst : t.rst = some .high := by
      rw [f.rst]
      split
      · rfl
      · next hi =>
        have hready : s.phase = .ready := by simpa [guardPasses, hi] using hg
        exact (h.idleLines ha (by simp [hready])).2
    exact h.ofStanding f.fb f.cfg e.result_legal (fun _ => f.idle.1) (e.standing f hrst)

/-! ## The steps of the machine -/

/-- New content of the framebuffer, in its canonical form and within `FB_BYTES`, keeps the invariant of an idle block. -/
theorem Inv.withFb {s : State} (h : Inv s) (ha : s.active = false) (addr : Nat) {bs : List Byte}
    (hlen : addr + bs.length ≤ s.cfg.fbBytes) : Inv (s.withFb (s.fb.writeBytes addr bs)) :=
  h.ofIdle ha (h.idleDead ha) rfl ⟨rfl, rfl, rfl⟩ rfl
    ⟨Memory.writeBytes_wf h.fbCanonical, Memory.writeBytes_below hlen h.fbExists⟩ h.resultLegal

theorem Inv.withLoadErr {s : State} (h : Inv s) (ha : s.active = false) (e : Err) : Inv (s.withLoadErr e) :=
  h.ofIdle ha (h.idleDead ha) rfl ⟨rfl, rfl, rfl⟩ rfl ⟨h.fbCanonical, h.fbExists⟩ h.resultLegal

/-- Time that passes keeps the invariant: a running operation advances (R12), an idle block stands (R131). -/
theorem Inv.advance {s t : State} (h : Inv s) (hd : s.done = false) (ht : advance s = .next t) : Inv t := by
  unfold Machine.advance at ht
  cases ha : s.active with
  | false => simp only [ha] at ht; cases ht; exact h
  | true =>
    obtain ⟨q, hq, r⟩ := h.running ha
    simp only [ha, if_true, hq] at ht
    cases ht
    have hout := microStep_outside q s
    refine h.ofStanding hout.fb hout.cfg ?_ ?_ (r.standing_microStep hq ha)
    · cases microStep_control hq with
      | runs p hseq hactive hdone hresult => rw [hresult]; exact h.resultLegal
      | ended hidle hdone hresult => exact hresult.1
    · cases microStep_control hq with
      | runs p hseq hactive hdone hresult => simp [hdone, hd]
      | ended hidle hdone hresult => exact fun _ => hidle.1

/-- Whatever action a step takes, the invariant stands; a request reaches an idle block only. -/
theorem Inv.hostStep {s t : State} {a : HostAction} (h : Inv s) (hd : s.done = false) (hreq : a.isRequest = true → s.active = false)
    (ht : hostStep a s = .next t) : Inv t := by
  cases a with
  | call w => exact h.exec (hreq rfl) ht
  | start w => cases ht; exact h.startOp (hreq rfl) hd _
  | idle => exact h.advance hd ht
  | memWrite addr bs =>
    simp only [Machine.hostStep, memWrite] at ht
    split at ht
    · cases ht; exact h.withFb (hreq rfl) addr ‹_›
    · cases ht
  | fbLoad bs =>
    cases ht
    unfold fbLoad
    split
    · exact h.withLoadErr (hreq rfl) _
    · exact (h.withFb (hreq rfl) 0 (by omega)).withLoadErr (hreq rfl) _
  | blockReset => cases ht; exact .ofResetValues ..
  | powerCycle => cases ht; exact .ofResetValues ..

/-- Settles O51: the done pulse falls, then whatever is taken of the host keeps the invariant. -/
theorem stepKeepsTheInvariant : Obligations.StepKeepsTheInvariant := by
  unfold Obligations.StepKeepsTheInvariant
  intro s t h ht
  unfold step at ht
  split at ht
  · exact (h.nextHost s.host).advance rfl ht
  · next a rest htake => exact (h.nextHost rest).hostStep rfl (fun hreq => (takeAction_request htake hreq).1) ht

/-- Settles O50: at reset every field of the block has the value of R21. -/
theorem resetSatisfiesTheInvariant : Obligations.ResetSatisfiesTheInvariant := .ofResetValues ..

end Sys2Proof.Machine
end

-- ==== How an operation goes on and ends (R11, R12) ====
section
/-! PROOFS. The phase and the result an operation ends with, and what one small step of it does while the host is quiet: read off
`exec_cases` and `microStep_control`. -/

namespace Sys2Proof.Machine

/-- Settles O28: the three ways an operation that passed its guard ends, and the refusal. -/
theorem phaseTransitionTable : Obligations.PhaseTransitionTable := by
  unfold Obligations.PhaseTransitionTable
  intro i s t h
  rcases exec_cases h with ⟨hg, rfl⟩ | ⟨hg, e, -⟩
  · exact ⟨fun _ => ⟨rfl, rfl⟩, fun hp => absurd hp (by simp [hg])⟩
  · refine ⟨fun hr => absurd hr (by simp [hg]), fun _ => ?_⟩
    cases e with
    | completed w hbus hw htrace hresult hphase => exact .inl ⟨hresult, hphase⟩
    | faulted j k v hv hbus hk htrace hresult hphase => exact .inr (.inl ⟨hresult, hphase⟩)
    | timedOut hsleep hbus hw htrace hresult hphase => exact .inr (.inr ⟨hresult, hsleep, hphase⟩)

/-- Settles O54: with a quiet host the step is one small step, which emits at most one event and ends in one of two ways. -/
theorem onlyResetCutsAnOperation : Obligations.OnlyResetCutsAnOperation := by
  unfold Obligations.OnlyResetCutsAnOperation
  intro s t q ha hq hquiet ht
  rw [step_running ha hq hquiet] at ht
  cases ht
  refine ⟨microStep_trace q _, ?_⟩
  cases microStep_control (q := q) (s := (s.withDone false).withHost (takeFree s.host).2) hq with
  | runs p hseq hactive hdone hresult => exact .inl ⟨hactive.trans ha, hdone, hresult, _, hseq, rfl, rfl⟩
  | ended hidle hdone hresult => exact .inr ⟨hidle, hdone, hresult⟩

end Sys2Proof.Machine
end

-- ==== Reset and power (R20, R21) ====
section
/-! PROOFS. What a block reset and a power cycle leave in the fields of the block and in the ghost state. -/

namespace Sys2Proof.Machine

/-- Settles O1: the values of R21 by the definition of `State.reset`; in Uninitialized the guard passes INITIALIZE alone. -/
theorem resetLeavesTheStatedValues : Obligations.ResetLeavesTheStatedValues := by
  unfold Obligations.ResetLeavesTheStatedValues
  refine ⟨rfl, rfl, rfl, rfl, rfl, rfl, rfl, rfl, rfl, rfl, rfl, rfl, fun _ => rfl, rfl, fun i hi => ?_⟩
  have hg : guardPasses i State.reset.phase = false := guardPasses_eq_false.2 ⟨hi, nofun⟩
  exact ⟨_, exec_refuses hg, rfl⟩

/-- Between operations a block reset leaves the ghost state alone (R20). -/
theorem panelAfterReset_idle {s : State} (ha : s.active = false) : panelAfterReset s = s.panel := by
  simp [panelAfterReset, ha]

/-- Settles O4: an idle block takes the oldest action, the reset or the power cycle. -/
theorem resetBetweenOperationsKeepsThePanel : Obligations.ResetBetweenOperationsKeepsThePanel := by
  unfold Obligations.ResetBetweenOperationsKeepsThePanel
  intro s rest ha
  refine ⟨fun h => ⟨_, step_idle ha h, ?_⟩, fun h => ⟨_, step_idle ha h, rfl, rfl, rfl⟩⟩
  exact panelAfterReset_idle (s := (s.withDone false).withHost rest) ha

theorem envAfterReset_dead {s : State} (h : s.byteIdx = none) : envAfterReset s = s.env := by simp [envAfterReset, h]

/-- A burst cut by a reset has used up its answer. -/
theorem envAfterReset_alive {s : State} {n : Nat} (h : s.byteIdx = some n) : envAfterReset s = s.env.afterBus := by
  simp [envAfterReset, h]

/-- Settles O5: a power cycle is no request, so it is taken at once, whatever requests stand before it. -/
theorem powerCycleGivesResetValues : Obligations.PowerCycleGivesResetValues := by
  unfold Obligations.PowerCycleGivesResetValues
  intro s held rest h hheld hidle
  refine ⟨_, step_free h hheld hidle rfl, rfl, rfl, rfl, rfl, rfl, rfl, rfl, rfl, rfl, rfl, rfl, rfl, fun _ => rfl, rfl, rfl, rfl,
    rfl, fun hb => ?_, fun n hb => ?_⟩
  · exact envAfterReset_dead (s := (s.withDone false).withHost (held ++ rest)) hb
  · exact envAfterReset_alive (s := (s.withDone false).withHost (held ++ rest)) hb

end Sys2Proof.Machine
end

-- ==== What no operation reads (R13, R20) ====
section
/-! PROOFS. No operation reads the result register or the ghost state: the primitives commute with putting others in their place
(`State.disguise`), and an operation's end overwrites the result. -/

namespace Sys2Proof.Machine

/-- INITIALIZE up to the first entry of its init table (R77, R80). -/
def bringUp (s : State) : State := (resetPulse (pinWrite .cs .high (s.withPhase .uninitialized))).withTblIdx (some 0)

/-- The body of INITIALIZE: the bring-up, the table, and what follows it (R80). -/
theorem initialiseBody_eq_afterTable (s : State) :
    initialiseBody s = afterTable (sendTable s.cfg.initTable (bringUp s)) := by
  rw [initialiseBody_eq, afterTable_eq, afterWait_eq]
  rfl

/-- A state with another result and another ghost state: two things no operation looks at. -/
def State.disguise (s : State) (r : Result) (p : Panel) : State := (s.withResult r).withPanel p

section disguise
variable (r : Result) (p : Panel)

@[simp] theorem disguise_cfg (s : State) : (s.disguise r p).cfg = s.cfg := rfl
@[simp] theorem frame_disguise (s : State) : frame (s.disguise r p) = frame s := rfl
@[simp] theorem withPhase_disguise (s : State) (v : Phase) :
    (s.disguise r p).withPhase v = (s.withPhase v).disguise r p := rfl
@[simp] theorem setPanelRam_disguise (s : State) (i : Image) :
    setPanelRam i (s.disguise r p) = (setPanelRam i s).disguise r { p with ram := i } := rfl

@[simp] theorem sendCommand_disguise (c : Byte) (s : State) :
    sendCommand c (s.disguise r p) = ((sendCommand c s).1, (sendCommand c s).2.disguise r p) := rfl

@[simp] theorem sendData_disguise (bs : List Byte) (s : State) :
    sendData bs (s.disguise r p) = ((sendData bs s).1, (sendData bs s).2.disguise r p) := by cases bs <;> rfl

@[simp] theorem sendEntry_disguise (e : InitEntry) (s : State) :
    sendEntry e (s.disguise r p) = ((sendEntry e s).1, (sendEntry e s).2.disguise r p) := by
  unfold sendEntry
  rw [sendCommand_disguise]
  obtain ⟨_ | k, t⟩ := sendCommand e.cmd s
  · exact sendData_disguise r p e.params t
  · rfl

@[simp] theorem sendTable_disguise (es : List InitEntry) (s : State) :
    sendTable es (s.disguise r p) = ((sendTable es s).1, (sendTable es s).2.disguise r p) := by
  induction es generalizing s with
  | nil => rfl
  | cons e es ih =>
    simp only [sendTable]
    rw [sendEntry_disguise]
    obtain ⟨_ | k, t⟩ := sendEntry e s
    · exact ih (countEntry t)
    · rfl

theorem busyWaitLoop_disguise (n : Nat) (s : State) :
    busyWaitLoop n (s.disguise r p) = ((busyWaitLoop n s).1, (busyWaitLoop n s).2.disguise r p) := by
  induction n generalizing s with
  | zero =>
    cases h : s.env.busyAt 0 with
    | low => rw [busyWaitLoop_low h, busyWaitLoop_low (s := s.disguise r p) h]; rfl
    | high => rw [busyWaitLoop_high_zero h, busyWaitLoop_high_zero (s := s.disguise r p) h]; rfl
  | succ n ih =>
    cases h : s.env.busyAt 0 with
    | low => rw [busyWaitLoop_low h, busyWaitLoop_low (s := s.disguise r p) h]; rfl
    | high =>
      rw [busyWaitLoop_high_succ h, busyWaitLoop_high_succ (s := s.disguise r p) h]
      exact ih (countPoll (delay s.cfg.tPollUs (sampleBusy s).2))

@[simp] theorem busyWait_disguise (s : State) :
    busyWait (s.disguise r p) = ((busyWait s).1, (busyWait s).2.disguise r p) :=
  busyWaitLoop_disguise r p s.cfg.nPollMax (s.withPollCnt (some 0))

theorem afterWait_disguise (op : Instr) (x : WaitResult × State) :
    ∃ p', afterWait op (x.1, x.2.disguise r p) = (afterWait op x).withPanel p' := by
  obtain ⟨_ | _, t⟩ := x <;> cases op <;> exact ⟨_, rfl⟩

theorem afterTable_disguise (x : BusOutcome × State) :
    ∃ p', afterTable (x.1, x.2.disguise r p) = (afterTable x).withPanel p' := by
  obtain ⟨_ | k, t⟩ := x
  · simp only [afterTable, busyWait_disguise]
    exact afterWait_disguise r p .initialise (busyWait t)
  · exact ⟨_, rfl⟩

@[simp] theorem bringUp_disguise (s : State) : bringUp (s.disguise r p) = (bringUp s).disguise r { p with ram := .undefined } := rfl

theorem initialiseBody_disguise (s : State) :
    ∃ p', initialiseBody (s.disguise r p) = (initialiseBody s).withPanel p' := by
  simp only [initialiseBody_eq_afterTable, disguise_cfg, bringUp_disguise, sendTable_disguise]
  exact afterTable_disguise r _ _

theorem updateFrameBody_disguise (s : State) :
    ∃ p', updateFrameBody (s.disguise r p) = (updateFrameBody s).withPanel p' := by
  simp only [updateFrameBody, withPhase_disguise, disguise_cfg, sendCommand_disguise]
  obtain ⟨_ | k, t⟩ := sendCommand (s.withPhase .transferringFrame).cfg.cmdWriteRam (s.withPhase .transferringFrame)
  · simp only [frame_disguise, sendData_disguise]
    obtain ⟨_ | k, u⟩ := sendData (frame t) t
    · simp only [setPanelRam_disguise, busyWait_disguise]
      obtain ⟨_ | _, v⟩ := busyWait (setPanelRam (.bytes (frame t)) u) <;> exact ⟨_, rfl⟩
    · exact ⟨_, rfl⟩
  · exact ⟨_, rfl⟩

theorem displayFrameBody_disguise (s : State) :
    ∃ p', displayFrameBody (s.disguise r p) = (displayFrameBody s).withPanel p' := by
  simp only [displayFrameBody, disguise_cfg, sendCommand_disguise]
  obtain ⟨_ | k, t⟩ := sendCommand s.cfg.cmdRefresh s
  · simp only [withPhase_disguise, busyWait_disguise]
    obtain ⟨_ | _, u⟩ := busyWait (t.withPhase .refreshing) <;> exact ⟨_, rfl⟩
  · exact ⟨_, rfl⟩

theorem sleepBody_disguise (s : State) :
    ∃ p', sleepBody (s.disguise r p) = (sleepBody s).withPanel p' := by
  simp only [sleepBody, disguise_cfg, sendCommand_disguise]
  obtain ⟨_ | k, t⟩ := sendCommand s.cfg.cmdSleep s
  · simp only [disguise_cfg, sendData_disguise]
    obtain ⟨_ | k, u⟩ := sendData t.cfg.sleepParams t <;> exact ⟨_, rfl⟩
  · exact ⟨_, rfl⟩

/-- A body leaves the same state behind whatever result and ghost state it starts with, but for the ghost state. -/
theorem body_disguise (i : Instr) (s : State) : ∃ p', bodyOf i (s.disguise r p) = (bodyOf i s).withPanel p' :=
  match i with
  | .initialise   => initialiseBody_disguise r p s
  | .updateFrame  => updateFrameBody_disguise r p s
  | .displayFrame => displayFrameBody_disguise r p s
  | .sleep        => sleepBody_disguise r p s

/-- The same of an operation with its guard, which reads the phase alone. -/
theorem opGuard_disguise (i : Instr) (s : State) :
    ∃ p', opGuard i (bodyOf i) (s.disguise r p) = (opGuard i (bodyOf i) s).withPanel p' := by
  cases h : guardPasses i s.phase with
  | false =>
    rw [opGuard_refuses h, opGuard_refuses (s := s.disguise r p) h]
    exact ⟨_, rfl⟩
  | true =>
    rw [opGuard_passes h, opGuard_passes (s := s.disguise r p) h]
    exact body_disguise r p i (s.withActive true)

end disguise

/-- Settles O40: another ghost state is a disguise that keeps the result. -/
theorem ghostStateIsNeverRead : Obligations.GhostStateIsNeverRead := by
  unfold Obligations.GhostStateIsNeverRead
  intro i s t p h
  rw [exec_eq] at h
  cases h
  obtain ⟨p', hp'⟩ := opGuard_disguise s.result p i s
  exact ⟨p', (exec_eq i (s.withPanel p)).trans (congrArg _ hp')⟩

/-- The ghost state an operation leaves, told by the ghost state and the frame it starts from and by its result. -/
def panelAfter (i : Instr) (s : State) (r : Result) : Panel :=
  if r = ⟨.ok, .none⟩ then panelOk s i else if r = ⟨.illegalState, .none⟩ then s.panel else panelFailed s i

theorem exec_panel {i : Instr} {s t : State} (h : exec i s = .next t) : t.panel = panelAfter i s t.result := by
  rcases exec_cases h with ⟨-, rfl⟩ | ⟨-, e, -⟩
  · rfl
  · cases e with
    | completed w hbus hw htrace hresult hphase hdc hnil hbusy henv hpanel => rw [hpanel, hresult]; rfl
    | faulted j k v hv hbus hk htrace hresult hphase hdc hbusy henv hpanel => rw [hpanel, hresult]; cases i <;> rfl
    | timedOut hsleep hbus hw htrace hresult hphase hdc hnil hbusy hpanel => rw [hpanel, hresult]; cases i <;> rfl

/-- Settles O39: another result is a disguise that keeps the ghost state, and what ghost state an operation leaves does not depend
on the result it finds. -/
theorem resultIsNeverRead : Obligations.ResultIsNeverRead := by
  unfold Obligations.ResultIsNeverRead
  intro i s r
  obtain ⟨p', hp'⟩ := opGuard_disguise r s.panel i s
  have hr : exec i (s.withResult r) = .next ((opGuard i (bodyOf i) s).withPanel p') :=
    (exec_eq i (s.withResult r)).trans (congrArg _ hp')
  have hpanel : p' = (opGuard i (bodyOf i) s).panel :=
    calc p' = panelAfter i (s.withResult r) (opGuard i (bodyOf i) s).result := exec_panel hr
      _ = panelAfter i s (opGuard i (bodyOf i) s).result := by cases i <;> rfl
      _ = (opGuard i (bodyOf i) s).panel := (exec_panel (exec_eq i s)).symm
  rw [hr, hpanel]
  exact (exec_eq i s).symm

end Sys2Proof.Machine
end

-- ==== The framebuffer and its pixels (R31, R32, R38, R42, R68) ====
section
/-! PROOFS. The content of `fb` after an operation, a port write and a load, and the pixel map: an address names a row and a byte
column of it (quotient and remainder by `ROW_BYTES`), and the bit names the pixel of the byte. -/

namespace Sys2Proof.Machine

/-! ## Operations leave the framebuffer -/

/-- A byte of `fb` depends on the memory and its epoch alone. -/
theorem fbByte_congr {s t : State} (hf : t.fb = s.fb) (he : t.fbEpoch = s.fbEpoch) (a : Nat) : fbByte t a = fbByte s a := by
  rw [fbByte, fbByte, hf, he]

/-- An operation only adds to the trace. -/
theorem OpEnd.trace_prefix {i : Instr} {s t : State} (e : OpEnd i s t) : s.trace <+: t.trace := by
  cases e with
  | completed w hbus hw htrace => simp [htrace]
  | faulted j k v hv hbus hk htrace => simp [htrace]
  | timedOut hsleep hbus hw htrace => simp [htrace]

/-- Settles O23: a refusal only finishes, and an accepted operation's end has the frame `OpFrame`. -/
theorem operationsLeaveTheFramebuffer : Obligations.OperationsLeaveTheFramebuffer := by
  unfold Obligations.OperationsLeaveTheFramebuffer
  intro i s t h
  rcases exec_cases h with ⟨-, rfl⟩ | ⟨-, e, f⟩
  · exact ⟨fun _ => rfl, rfl, rfl, rfl, rfl, rfl, rfl, List.prefix_rfl, ⟨rfl, rfl, rfl, rfl, rfl⟩, rfl⟩
  · exact ⟨fbByte_congr f.fb f.fbEpoch, f.fb, f.fbEpoch, frame_congr f.fb f.fbEpoch f.cfg, f.cfg, f.host, f.loadErr,
      e.trace_prefix, f.idle, f.done⟩

/-! ## Port writes -/

theorem fbByte_writeBytes_inside (s : State) (addr : Nat) {bs : List Byte} {i : Nat} (h : i < bs.length) :
    fbByte (s.withFb (s.fb.writeBytes addr bs)) (addr + i) = bs[i] := by
  have hread : (s.fb.writeBytes addr bs).read (addr + i) = some bs[i] := by
    rw [Memory.read_writeBytes, if_pos (by omega), Nat.add_sub_cancel_left, List.getElem?_eq_getElem h]
  rw [fbByte, State.withFb_fb, hread, Option.getD_some]

theorem fbByte_writeBytes_outside (s : State) {addr a : Nat} {bs : List Byte} (h : a < addr ∨ addr + bs.length ≤ a) :
    fbByte (s.withFb (s.fb.writeBytes addr bs)) a = fbByte s a := by
  have hread : (s.fb.writeBytes addr bs).read a = s.fb.read a := by
    rw [Memory.read_writeBytes, if_neg (by omega)]
  rw [fbByte, fbByte, State.withFb_fb, hread, State.withFb_fbEpoch]

theorem memWrite_inside {addr : Nat} {bs : List Byte} {s : State} (h : addr + bs.length ≤ s.cfg.fbBytes) :
    memWrite addr bs s = .next (s.withFb (s.fb.writeBytes addr bs)) := if_pos h

theorem memWrite_beyond {addr : Nat} {bs : List Byte} {s : State} (h : s.cfg.fbBytes < addr + bs.length) :
    memWrite addr bs s = .fault .fbAddress := if_neg (by omega)

/-- Settles O47: an idle block takes the write, and the bytes read back as written, or as before outside it. -/
theorem portWriteStoresItsBytes : Obligations.PortWriteStoresItsBytes := by
  unfold Obligations.PortWriteStoresItsBytes
  intro s addr v rest ha hhost
  have hstep : step s = memWrite addr v ((s.withDone false).withHost rest) := step_idle ha hhost
  refine ⟨fun hin => ⟨_, hstep.trans (memWrite_inside hin), ?_, ?_, rfl, rfl, rfl, ha, rfl⟩,
    fun hout => hstep.trans (memWrite_beyond hout)⟩
  · exact fun i hi => fbByte_writeBytes_inside _ addr hi
  · exact fun a hout => fbByte_writeBytes_outside ((s.withDone false).withHost rest) hout

/-! ## The pixel map -/

/-- A row of a well-formed configuration is whole bytes (R4). -/
theorem width_eq_of_wf {c : Cfg} (h : c.wf = true) : c.width = 8 * c.rowBytes := by
  simp only [Cfg.wf, Cfg.widthWholeBytes, Bool.and_eq_true, beq_iff_eq] at h
  obtain ⟨⟨⟨⟨-, hmod⟩, -⟩, -⟩, -⟩ := h
  rw [Cfg.rowBytes]
  omega

theorem pixelBit_lt (x : Nat) : pixelBit x < 8 := by
  rw [pixelBit]
  omega

/-- A pixel is the one of its byte that its bit names. -/
theorem eq_of_pixelBit_eq {x x' : Nat} (hbyte : x / 8 = x' / 8) (hbit : pixelBit x = pixelBit x') : x = x' := by
  simp only [pixelBit] at hbit
  omega

/-- A pixel's address is below `FB_BYTES`: its row is one of `HEIGHT` and its byte column one of `ROW_BYTES`. -/
theorem pixelAddr_lt {c : Cfg} {x y : Nat} (hx : x / 8 < c.rowBytes) (hy : y < c.height) : pixelAddr c x y < c.fbBytes :=
  calc y * c.rowBytes + x / 8 < y * c.rowBytes + c.rowBytes := Nat.add_lt_add_left hx _
    _ = (y + 1) * c.rowBytes := (Nat.succ_mul y c.rowBytes).symm
    _ ≤ c.height * c.rowBytes := Nat.mul_le_mul_right _ hy
    _ = c.fbBytes := Nat.mul_comm _ _

/-- The row is the quotient of the address by `ROW_BYTES`. -/
theorem pixelAddr_div {c : Cfg} {x : Nat} (y : Nat) (hx : x / 8 < c.rowBytes) : pixelAddr c x y / c.rowBytes = y := by
  rw [pixelAddr, Nat.mul_comm, Nat.mul_add_div (by omega), Nat.div_eq_of_lt hx, Nat.add_zero]

/-- The byte column is the remainder of the address by `ROW_BYTES`. -/
theorem pixelAddr_mod {c : Cfg} {x : Nat} (y : Nat) (hx : x / 8 < c.rowBytes) : pixelAddr c x y % c.rowBytes = x / 8 := by
  rw [pixelAddr, Nat.mul_add_mod_of_lt hx]

/-- Every bit of every byte is a pixel: the one in the row and the byte column that the address has as quotient and remainder. -/
theorem exists_pixel {c : Cfg} {a b : Nat} (hwidth : c.width = 8 * c.rowBytes) (ha : a < c.fbBytes) (hb : b < 8) :
    ∃ x y, x < c.width ∧ y < c.height ∧ pixelAddr c x y = a ∧ pixelBit x = b := by
  have hrow : 0 < c.rowBytes := Nat.pos_of_ne_zero fun h => by simp [Cfg.fbBytes, h] at ha
  have hcol : a % c.rowBytes < c.rowBytes := Nat.mod_lt a hrow
  have hbyte : (8 * (a % c.rowBytes) + (7 - b)) / 8 = a % c.rowBytes := by omega
  refine ⟨8 * (a % c.rowBytes) + (7 - b), a / c.rowBytes, by omega, Nat.div_lt_of_lt_mul ha, ?_, ?_⟩
  · rw [pixelAddr, hbyte, Nat.div_add_mod']
  · rw [pixelBit]
    omega

/-- Settles O48: quotient and remainder by `ROW_BYTES` give the row and the byte column back. -/
theorem pixelMapIsABijection : Obligations.PixelMapIsABijection := by
  unfold Obligations.PixelMapIsABijection
  intro c hwf
  have hwidth := width_eq_of_wf hwf
  refine ⟨fun x y hx hy => ⟨pixelAddr_lt (by omega) hy, pixelBit_lt x⟩, fun x y x' y' hx hx' haddr hbit => ?_,
    fun a b => exists_pixel hwidth⟩
  have hcol : x / 8 < c.rowBytes := by omega
  have hcol' : x' / 8 < c.rowBytes := by omega
  have hrow : y = y' := by rw [← pixelAddr_div y hcol, haddr, pixelAddr_div y' hcol']
  have hbyte : x / 8 = x' / 8 := by rw [← pixelAddr_mod y hcol, haddr, pixelAddr_mod y' hcol']
  exact ⟨eq_of_pixelBit_eq hbyte hbit, hrow⟩

/-! ## Loads -/

theorem fbLoad_of_length {s : State} {bs : List Byte} (h : bs.length = s.cfg.fbBytes) :
    fbLoad bs s = (s.withFb (s.fb.writeBytes 0 bs)).withLoadErr .ok := if_neg (not_not_intro h)

/-- Pixels of a loaded framebuffer are read at R32's place in the bytes loaded. -/
theorem pixel_fbLoad {s : State} {bs : List Byte} {x y : Nat} (hlen : bs.length = s.cfg.fbBytes)
    (h : pixelAddr s.cfg x y < bs.length) : pixel (fbLoad bs s) x y = bitOf bs[pixelAddr s.cfg x y] (pixelBit x) := by
  have hbyte : fbByte (s.withFb (s.fb.writeBytes 0 bs)) (pixelAddr s.cfg x y) = bs[pixelAddr s.cfg x y] := by
    simpa using fbByte_writeBytes_inside s 0 h
  rw [fbLoad_of_length hlen, ← hbyte]
  rfl

/-- Settles O49: the pixel's address lies in the bytes loaded, and the load stored them from address 0 on. -/
theorem loadedPixelsReadBack : Obligations.LoadedPixelsReadBack := by
  unfold Obligations.LoadedPixelsReadBack
  intro s bs x y hwf hlen hx hy
  have hwidth := width_eq_of_wf hwf
  have haddr : pixelAddr s.cfg x y < bs.length := hlen ▸ pixelAddr_lt (by omega) hy
  have hget : bs[pixelAddr s.cfg x y]? = some bs[pixelAddr s.cfg x y] := List.getElem?_eq_getElem haddr
  have hpixel := pixel_fbLoad hlen haddr
  exact ⟨bs[pixelAddr s.cfg x y], hget, hpixel, by rw [pixelIn, hget, hpixel, Option.map_some]⟩

end Sys2Proof.Machine
end

-- ==== Encodings (R51, R53, R57, R58) ====
section
/-! PROOFS. The operation word, the result word and the status word: what each decoder makes of a word that was encoded, and of the
words that nothing encodes. -/

namespace Sys2Proof

theorem decode_encode (i : Instr) : decode (encode i) = i := by cases i <;> rfl

theorem encode_decode (w : OpWord) : encode (decode w) = w := by
  revert w
  decide

end Sys2Proof

namespace Sys2Proof.Machine

/-- Settles O6: the words are those of `encode`, and their bytes in the table's numbering carry them. -/
theorem opCodesSelectTheirOperations : Obligations.OpCodesSelectTheirOperations :=
  ⟨decode_encode .initialise, decode_encode .updateFrame, decode_encode .displayFrame, decode_encode .sleep,
    Laws.Spelling.initialise.1, Laws.Spelling.updateFrame.1, Laws.Spelling.displayFrame.1, Laws.Spelling.sleep.1⟩

/-- Settles O7: one round trip for the four operations, one for the four words. -/
theorem decodeAndEncodeAgree : Obligations.DecodeAndEncodeAgree := ⟨decode_encode, encode_decode⟩

theorem resultOfWord_resultWord {r : Result} (h : r ∈ legalResults) : resultOfWord (resultWord r) = some r := by
  revert r
  decide

/-- The decoder searches the six pairs, so what it finds is one of them, with the word it was asked for. -/
theorem resultOfWord_eq_some {w : BitVec 5} {r : Result} (h : resultOfWord w = some r) :
    r ∈ legalResults ∧ resultWord r = w :=
  ⟨List.mem_of_find?_eq_some h, eq_of_beq (List.find?_some (p := fun r => resultWord r == w) h)⟩

/-- Settles O8: the codes by their definition, and the decoder by what its search finds. -/
theorem resultWordsAreThoseOfTheSpec : Obligations.ResultWordsAreThoseOfTheSpec :=
  ⟨rfl, rfl, rfl, rfl, rfl, rfl, rfl, rfl, fun _ => resultOfWord_resultWord, fun _ _ => resultOfWord_eq_some⟩

theorem phaseOfCode_phaseCode (p : Phase) : phaseOfCode (phaseCode p) = some p := by cases p <;> rfl

theorem statusWord_phase (s : State) : (statusWord s).extractLsb' 0 3 = phaseCode s.phase :=
  BitVec.extractLsb'_append_eq_right

theorem statusWord_active (s : State) : (statusWord s).getLsbD 3 = s.active := by
  rw [statusWord, BitVec.getLsbD_append, if_neg (by decide)]
  cases s.active <;> rfl

theorem statusOfWord_statusWord (s : State) : statusOfWord (statusWord s) = some (s.active, s.phase) := by
  rw [statusOfWord, statusWord_phase, statusWord_active, phaseOfCode_phaseCode, Option.map_some]

/-- Settles O9: the status word is the bit `active` put before the code of the phase. -/
theorem statusWordShowsPhaseAndActive : Obligations.StatusWordShowsPhaseAndActive :=
  ⟨fun s => ⟨statusWord_phase s, statusWord_active s, statusOfWord_statusWord s⟩, rfl, rfl, rfl, rfl, rfl, rfl, rfl, rfl⟩

end Sys2Proof.Machine
end

-- ==== The operation port (R38, R50) ====
section
/-! PROOFS. The hand-shake: an idle block takes the word presented; a running block holds requests off, whatever else of the host's
list it takes. -/

namespace Sys2Proof.Machine

/-! ## An idle block takes the word -/

/-- An idle block runs a word called, whole (R50). -/
theorem step_call {s : State} {w : OpWord} {rest : List HostAction} (ha : s.active = false) (h : s.host = .call w :: rest) :
    step s = exec (decode w) ((s.withDone false).withHost rest) := step_idle ha h

/-- An idle block accepts a word started (R50). -/
theorem step_start {s : State} {w : OpWord} {rest : List HostAction} (ha : s.active = false) (h : s.host = .start w :: rest) :
    step s = .next (startOp (decode w) ((s.withDone false).withHost rest)) := step_idle ha h

/-- The two bits of an operation word are below every wider cut. -/
theorem opWord_ofNat_mod {n : Nat} (v : Nat) (h : 2 ≤ n) : BitVec.ofNat 2 (v % 2 ^ n) = BitVec.ofNat 2 v := by
  apply BitVec.eq_of_toNat_eq
  rw [BitVec.toNat_ofNat, BitVec.toNat_ofNat, Nat.mod_mod_of_dvd _ (Nat.pow_dvd_pow 2 h)]

/-- Settles O10: the idle block takes the word called, also where `State.withFetchWord` placed it. -/
theorem stepRunsTheDecodedOperation : Obligations.StepRunsTheDecodedOperation := by
  unfold Obligations.StepRunsTheDecodedOperation
  refine ⟨fun s w rest ha h => step_call ha h, fun s nbits v hn => ?_⟩
  rw [← opWord_ofNat_mod v hn]
  exact step_call (s := s.withFetchWord nbits v) rfl rfl

/-! ## What is at the port -/

theorem opReady_iff (s : State) : opReady s = true ↔ s.active = false := by simp [opReady]

theorem opValid_iff (s : State) : opValid s = true ↔ ∃ w, opCode s = some w := by
  unfold opValid opCode
  split <;> simp

/-- A word is presented by the host's oldest action, in one of the two granularities (R6, R50). -/
theorem opCode_eq_some {s : State} {w : OpWord} (h : opCode s = some w) :
    s.host = .call w :: s.host.tail ∨ s.host = .start w :: s.host.tail := by
  unfold opCode at h
  split at h
  · next hhost => cases h; exact .inl (by rw [hhost]; rfl)
  · next hhost => cases h; exact .inr (by rw [hhost]; rfl)
  · cases h

/-! ## A running block holds requests off -/

theorem advance_host {s t : State} (h : advance s = .next t) : t.host = s.host := by
  unfold advance at h
  split at h
  · split at h
    · cases h; exact (microStep_outside _ s).host
    · cases h
  · cases h; rfl

/-- An action that is no request leaves the host's list alone. -/
theorem hostStep_host {a : HostAction} {s t : State} (ha : a.isRequest = false) (h : hostStep a s = .next t) :
    t.host = s.host := by
  cases a with
  | idle => exact advance_host h
  | blockReset => cases h; rfl
  | powerCycle => cases h; rfl
  | call w => cases ha
  | start w => cases ha
  | memWrite addr bs => cases ha
  | fbLoad bs => cases ha

/-- A request first in the list of a running block is first after the step, whatever the host does meanwhile (R38, R50, R132). -/
theorem step_keeps_request {s t : State} {a : HostAction} {rest : List HostAction} (hact : s.active = true)
    (hhost : s.host = a :: rest) (hreq : a.isRequest = true) (h : step s = .next t) : ∃ later, t.host = a :: later := by
  unfold step takeAction at h
  rw [hact, if_pos rfl, hhost, takeFree_cons_request hreq] at h
  have hfree := fun b => takeFree_isRequest (l := rest) (a := b)
  generalize takeFree rest = x at h hfree
  obtain ⟨_ | b, later⟩ := x
  · exact ⟨rest, (advance_host h).trans hhost⟩
  · exact ⟨later, hostStep_host (hfree b rfl) h⟩

/-- Settles O11: an idle block takes the action that presents the word, a running one keeps it. -/
theorem handshakeAcceptsTheWord : Obligations.HandshakeAcceptsTheWord := by
  unfold Obligations.HandshakeAcceptsTheWord
  refine ⟨fun s => ⟨opReady_iff s, opValid_iff s⟩, fun s w hready hcode => ?_, fun s t w hready hcode hstep => ?_⟩
  · have ha := (opReady_iff s).1 hready
    rcases opCode_eq_some hcode with hhost | hhost
    · exact .inl (step_call ha hhost)
    · exact .inr (step_start ha hhost)
  · have ha : s.active = true := by simpa [opReady] using hready
    rcases opCode_eq_some hcode with hhost | hhost <;>
    · obtain ⟨later, hlater⟩ := step_keeps_request ha hhost rfl hstep
      rw [opCode, hlater]

/-- Settles O12: with a quiet host the step is one small step, which writes neither the host's list nor the framebuffer. -/
theorem requestsAreHeldOffWhileActive : Obligations.RequestsAreHeldOffWhileActive := by
  unfold Obligations.RequestsAreHeldOffWhileActive
  intro s q a rest hact hseq hhost hreq hquiet
  have hstep := step_running hact hseq hquiet
  rw [hhost, takeFree_cons_request hreq] at hstep
  have o := microStep_outside q ((s.withDone false).withHost (a :: (takeFree rest).2))
  exact ⟨_, hstep, rfl, o.host, fbByte_congr (s := s) o.fb o.fbEpoch⟩

end Sys2Proof.Machine
end

-- ==== RECOVER and SHOW (R60, R111, R146) ====
section
/-! PROOFS. A called operation completes under a sound bus and a responsive panel and leaves the later answers to the operations after
it (`step_call_completes`); the two sequences are such calls one after another, with a load between. -/

namespace Sys2Proof.Machine

/-! ## One operation -/

/-- Among `N_POLL_MAX + 1` samples that hold a low one, not all are high (P2 of R146). -/
theorem not_busyHighFor {c : Cfg} {e : Env} (h : ResponsiveFor 1 c e) : ¬ BusyHighFor (c.nPollMax + 1) e := by
  intro hhigh
  obtain ⟨w, hw, hlow⟩ := h 0 (by omega)
  rw [Nat.zero_add, hhigh w (by omega)] at hlow
  cases hlow

/-- Under P1 and P2 an accepted operation neither meets a fault nor runs out of polls, so it completes (R146). -/
theorem OpEnd.completes {i : Instr} {s t : State} (e : OpEnd i s t) (hbus : BusOkFor (opWindows s i).length s.env)
    (hbusy : ResponsiveFor 1 s.cfg s.env) : t.result = ⟨.ok, .none⟩ ∧ t.phase = targetPhase i ∧ t.panel = panelOk s i := by
  cases e with
  | completed w _ _ _ hresult hphase _ _ _ _ hpanel => exact ⟨hresult, hphase, hpanel⟩
  | faulted j k v hv _ hk =>
    rw [hbus j (List.getElem?_eq_some_iff.1 hv).1] at hk
    cases hk
  | timedOut _ _ hhigh => exact absurd hhigh (not_busyHighFor hbusy)

/-- What a called operation that completes leaves, `rest` being the host's later actions. It asks for as many bursts as it has windows
and for at most `N_POLL_MAX + 1` samples, so of the good answers the others are left. -/
structure Completed (i : Instr) (rest : List HostAction) (s t : State) : Prop where
  active : t.active = false
  host   : t.host = rest
  cfg    : t.cfg = s.cfg
  result : t.result = ⟨.ok, .none⟩
  phase  : t.phase = targetPhase i
  panel  : t.panel = panelOk s i
  bus    : ∀ m, BusOkFor ((opWindows s i).length + m) s.env → BusOkFor m t.env
  busy   : ∀ n, ResponsiveFor (s.cfg.nPollMax + 1 + n) s.cfg s.env → ResponsiveFor n t.cfg t.env

/-- Called of an idle block that the guard lets pass, an operation completes under P1 and P2 (R146). -/
theorem step_call_completes {i : Instr} {s : State} {rest : List HostAction} (ha : s.active = false)
    (hhost : s.host = .call (encode i) :: rest) (hg : guardPasses i s.phase = true)
    (hbus : BusOkFor (opWindows s i).length s.env) (hbusy : ResponsiveFor 1 s.cfg s.env) :
    ∃ t, step s = .next t ∧ Completed i rest s t := by
  have hwindows : opWindows ((s.withDone false).withHost rest) i = opWindows s i := by cases i <;> rfl
  have hpanel : panelOk ((s.withDone false).withHost rest) i = panelOk s i := by cases i <;> rfl
  have hexec := exec_eq i ((s.withDone false).withHost rest)
  have hstep := step_call ha hhost
  rw [decode_encode, hexec] at hstep
  obtain ⟨k, hk, l, hl, hleft⟩ := exec_consumes hexec
  obtain ⟨hrefused, -⟩ | ⟨-, e, f⟩ := exec_cases hexec
  · exact absurd (hg.symm.trans hrefused) nofun
  · obtain ⟨hresult, hphase, hshown⟩ := e.completes (hwindows ▸ hbus) hbusy
    rw [hwindows] at hk
    refine ⟨_, hstep, f.idle.1, f.host, f.cfg, hresult, hphase, hshown.trans hpanel, fun m h => ?_, fun n h => ?_⟩
    · exact (h.mono (Nat.add_le_add_right hk m)).consumed hleft
    · rw [f.cfg]
      exact (h.mono (Nat.add_le_add_right hl n)).consumed hleft

/-! ## The sequences -/

/-- UPDATE_FRAME has at most two windows: an empty frame has none (R74, R85). -/
theorem length_opWindows_updateFrame (s : State) : (opWindows s .updateFrame).length ≤ 2 := by
  have hdata : (dataWindows (frame s)).length ≤ 1 := by
    unfold dataWindows
    split <;> simp
  exact Nat.succ_le_succ hdata

/-- UPDATE_FRAME and DISPLAY_FRAME called from Ready show the frame (R85, R90, R93). -/
theorem run_updateThenDisplay {s : State} (ha : s.active = false) (hready : s.phase = .ready)
    (hhost : s.host = [.call (encode .updateFrame), .call (encode .displayFrame)]) (hbus : BusOkFor 3 s.env)
    (hbusy : ResponsiveFor (s.cfg.nPollMax + 2) s.cfg s.env) :
    ∃ t : State, Host.Core.run Sys2Proof.core 2 s = .next t ∧ runEnded t = true ∧ t.phase = .ready
      ∧ t.result = ⟨.ok, .none⟩ ∧ t.panel = ⟨s.panel.config, .bytes (frame s), .bytes (frame s)⟩ := by
  have hwindows := length_opWindows_updateFrame s
  obtain ⟨t, hstep, h⟩ := step_call_completes ha hhost (by rw [hready]; rfl) (hbus.mono (by omega)) (hbusy.mono (by omega))
  obtain ⟨u, hstep', h'⟩ := step_call_completes h.active h.host (by rw [h.phase]; rfl)
    (h.bus 1 (hbus.mono (by omega))) (h.busy 1 hbusy)
  refine ⟨u, (run_next hstep).trans (run_next hstep'), by simp [runEnded, h'.host, h'.active], h'.phase, h'.result, ?_⟩
  rw [h'.panel, panelOk, h.panel, panelOk]

/-- SHOW from Ready: the load makes its bytes the frame, then UPDATE_FRAME and DISPLAY_FRAME show it (R60, R68). -/
theorem run_showActions {s : State} {bs : List Byte} (ha : s.active = false) (hready : s.phase = .ready)
    (hhost : s.host = showActions bs) (hlen : bs.length = s.cfg.fbBytes) (hbus : BusOkFor 3 s.env)
    (hbusy : ResponsiveFor (s.cfg.nPollMax + 2) s.cfg s.env) :
    ∃ t : State, Host.Core.run Sys2Proof.core 3 s = .next t ∧ runEnded t = true ∧ t.phase = .ready
      ∧ t.result = ⟨.ok, .none⟩ ∧ t.panel = ⟨s.panel.config, .bytes bs, .bytes bs⟩ := by
  let s₀ := (s.withDone false).withHost [.call (encode .updateFrame), .call (encode .displayFrame)]
  have hload : step s = .next (fbLoad bs s₀) := step_idle ha hhost
  have hframe : frame (fbLoad bs s₀) = bs := frame_of_load hlen
  rw [fbLoad_of_length (s := s₀) hlen] at hload hframe
  obtain ⟨t, hrun, h⟩ := run_updateThenDisplay (s := (s₀.withFb (s₀.fb.writeBytes 0 bs)).withLoadErr .ok) ha hready rfl hbus hbusy
  rw [hframe] at h
  exact ⟨t, (run_next hload).trans hrun, h⟩

/-- Settles O56: INITIALIZE completes from every idle phase and leaves the block Ready, where SHOW starts. -/
theorem recoverShowsTheLoadedFrame : Obligations.RecoverShowsTheLoadedFrame := by
  unfold Obligations.RecoverShowsTheLoadedFrame
  intro s bs ha hlen hbus hbusy
  refine ⟨?_, fun hready => ?_⟩
  · obtain ⟨t, hstep, h⟩ := step_call_completes (i := .initialise) (s := s.withHost (recoverActions bs)) ha rfl rfl
      (hbus.mono (Nat.le_add_right _ 3)) (hbusy.mono (by omega))
    obtain ⟨u, hrun, hended, hphase, hresult, hpanel⟩ := run_showActions h.active h.phase h.host (hlen.trans (by rw [h.cfg]; rfl))
      (h.bus 3 hbus) (h.busy _ (hbusy.mono (by simp [h.cfg]; omega)))
    exact ⟨u, (run_next hstep).trans hrun, hended, hphase, hresult, by rw [hpanel, h.panel]; rfl⟩
  · obtain ⟨u, hrun, hended, hphase, hresult, hpanel⟩ := run_showActions (s := s.withHost (showActions bs)) ha hready rfl hlen
      (hbus.mono (by omega)) (hbusy.mono (by rw [State.withHost_cfg]; omega))
    exact ⟨u, hrun, hended, hphase, hresult, by rw [hpanel], by rw [hpanel]⟩

end Sys2Proof.Machine
end

-- ==== The framebuffer functions and the load (R65, R66, R67, R68) ====
section
/-! PROOFS. Each framebuffer function and the load check a size first, and an equation for either answer of the check says what
follows. While an operation runs, a load is a request held off like any other. -/

namespace Sys2Proof.Machine

/-! ## The framebuffer functions -/

theorem fbCreate_of_mod_ne {w : Nat} (h : Nat) (hw : w % 8 ≠ 0) : fbCreate w h = .error .invalidGeometry := if_pos hw

theorem fbCreate_of_mod_eq {w : Nat} (h : Nat) (hw : w % 8 = 0) :
    fbCreate w h = .ok ⟨w, h, List.replicate ((w / 8) * h) 0x00#8⟩ := if_neg (not_not_intro hw)

theorem fbFromBytes_of_length_ne {w h : Nat} {bs : List Byte} (hlen : bs.length ≠ fbSize w h) :
    fbFromBytes w h bs = .error .sizeMismatch := if_pos hlen

theorem fbFromBytes_of_length {w h : Nat} {bs : List Byte} (hlen : bs.length = fbSize w h) :
    fbFromBytes w h bs = .ok ⟨w, h, bs⟩ := if_neg (not_not_intro hlen)

/-- Settles O45: the two checks decide the errors, and the value built holds the zeros, or the bytes given, as they are. -/
theorem framebufferFunctionsCheckTheirSizes : Obligations.FramebufferFunctionsCheckTheirSizes := by
  unfold Obligations.FramebufferFunctionsCheckTheirSizes
  refine ⟨fun w h => fbCreate_of_mod_ne h, fun w h hw => ⟨fbCreate_of_mod_eq h hw, List.length_replicate⟩,
    fun w h bs => fbFromBytes_of_length_ne, fun w h bs hlen => ?_, fun f => rfl⟩
  exact ⟨_, fbFromBytes_of_length hlen, rfl, rfl, rfl⟩

/-! ## The load -/

theorem fbLoad_of_length_ne {s : State} {bs : List Byte} (h : bs.length ≠ s.cfg.fbBytes) :
    fbLoad bs s = s.withLoadErr .sizeMismatch := if_pos h

/-- A load of `FB_BYTES` bytes writes every address of the framebuffer (R68). -/
theorem loadedFrame_fbLoad {s : State} {bs : List Byte} (h : bs.length = s.cfg.fbBytes) : LoadedFrame (fbLoad bs s) := by
  rw [fbLoad_of_length h]
  intro a (ha : a < s.cfg.fbBytes)
  have hread : (s.fb.writeBytes 0 bs).read a = bs[a]? := by
    rw [Memory.read_writeBytes, if_pos (by omega), Nat.sub_zero]
  rw [State.withLoadErr_fb, State.withFb_fb, hread]
  simp [h, ha]

/-- A load of `FB_BYTES` bytes writes no address beyond the framebuffer. -/
theorem fbByte_fbLoad_beyond {s : State} {bs : List Byte} {a : Nat} (h : bs.length = s.cfg.fbBytes) (ha : s.cfg.fbBytes ≤ a) :
    fbByte (fbLoad bs s) a = fbByte s a := by
  rw [fbLoad_of_length h]
  exact fbByte_writeBytes_outside s (.inr (by omega))

/-- What the host sees of a load of another length, and what stands (R68). -/
theorem fbLoad_refuses {s : State} {bs : List Byte} (h : bs.length ≠ s.cfg.fbBytes) :
    (fbLoad bs s).loadErr = .sizeMismatch ∧ ∀ a, fbByte (fbLoad bs s) a = fbByte s a := by
  rw [fbLoad_of_length_ne h]
  exact ⟨rfl, fun _ => rfl⟩

/-- What the host sees of a load of `FB_BYTES` bytes, and what it makes of the framebuffer (R68). -/
theorem fbLoad_loads {s : State} {bs : List Byte} (h : bs.length = s.cfg.fbBytes) :
    (fbLoad bs s).loadErr = .ok ∧ frame (fbLoad bs s) = bs ∧ LoadedFrame (fbLoad bs s)
      ∧ ∀ a, s.cfg.fbBytes ≤ a → fbByte (fbLoad bs s) a = fbByte s a :=
  ⟨by rw [fbLoad_of_length h, State.withLoadErr_loadErr], frame_of_load h, loadedFrame_fbLoad h, fun _ => fbByte_fbLoad_beyond h⟩

/-- In either case a load writes the framebuffer and the host's load error, nothing else. -/
theorem exists_fbLoad_eq (bs : List Byte) (s : State) : ∃ m e, fbLoad bs s = (s.withFb m).withLoadErr e := by
  by_cases h : bs.length = s.cfg.fbBytes
  · exact ⟨_, _, fbLoad_of_length h⟩
  · exact ⟨s.fb, _, fbLoad_of_length_ne h⟩

/-- Settles O46: a running block holds the load off as any request; an idle one takes it, and the length decides what it does. -/
theorem loadChecksTheLength : Obligations.LoadChecksTheLength := by
  unfold Obligations.LoadChecksTheLength
  intro s bs rest hhost
  refine ⟨fun q hact hseq hquiet => ?_, fun ha => ?_⟩
  · obtain ⟨t, hstep, -, hheld, hbytes⟩ := requestsAreHeldOffWhileActive s q _ rest hact hseq hhost rfl hquiet
    exact ⟨t, hstep, by rw [hheld, List.head?_cons], hbytes⟩
  · have hstep : step s = .next (fbLoad bs ((s.withDone false).withHost rest)) := step_idle ha hhost
    have hrefused := fbLoad_refuses (s := (s.withDone false).withHost rest) (bs := bs)
    have hloaded := fbLoad_loads (s := (s.withDone false).withHost rest) (bs := bs)
    obtain ⟨m, e, hload⟩ := exists_fbLoad_eq bs ((s.withDone false).withHost rest)
    rw [hload] at hstep hrefused hloaded
    exact ⟨_, hstep, rfl, hrefused, hloaded, rfl, rfl, rfl, ha, rfl, rfl, rfl, rfl, rfl⟩

end Sys2Proof.Machine
end

-- ==== How an operation starts and how it fails (R72, R76, R78, R79) ====
section
/-! PROOFS. The acceptance of an operation word in small steps, and the two ways an accepted operation fails. The environment's answers
tell which of the ends of `OpEnd` it is: they have one first fault, and BUSY is not both low and high at one sample. -/

namespace Sys2Proof.Machine

/-! ## Acceptance -/

/-- The first position of an operation's body: the deassertion of CS, or the window of the command (R80, R85, R90, R95). -/
def bodyStart : Instr → Pos
  | .initialise => .csIdle
  | .updateFrame | .displayFrame | .sleep => .window .cmd .dc

theorem bodyStart_of_ne {i : Instr} (h : i ≠ .initialise) : bodyStart i = .window .cmd .dc := by
  cases i with
  | initialise => exact absurd rfl h
  | updateFrame | displayFrame | sleep => rfl

section firstPos
variable (i : Instr) (s : State)
@[simp] theorem firstPos_active : (firstPos i s).active = s.active := by cases i <;> rfl
@[simp] theorem firstPos_seq : (firstPos i s).seq = some ⟨i, s.trace.length, bodyStart i⟩ := by cases i <;> rfl
@[simp] theorem firstPos_result : (firstPos i s).result = s.result := by cases i <;> rfl
@[simp] theorem firstPos_done : (firstPos i s).done = s.done := by cases i <;> rfl
@[simp] theorem firstPos_trace : (firstPos i s).trace = s.trace := by cases i <;> rfl
@[simp] theorem firstPos_host : (firstPos i s).host = s.host := by cases i <;> rfl
end firstPos

/-- The phase from acceptance on: DISPLAY_FRAME and SLEEP keep the Ready in which their guard lets them run (R11, R79). -/
theorem firstPos_phase {i : Instr} {s : State} (hg : guardPasses i s.phase = true) :
    (firstPos i s).phase = phaseAt i (bodyStart i) := by
  cases i with
  | initialise | updateFrame => rfl
  | displayFrame | sleep => exact (by simpa [guardPasses] using hg : s.phase = .ready)

/-- Settles O15: an idle block takes the word started, and the guard either refuses it or puts the operation at its first position. -/
theorem acceptanceStartsTheOperation : Obligations.AcceptanceStartsTheOperation := by
  unfold Obligations.AcceptanceStartsTheOperation
  intro s w rest ⟨ha, _⟩ hhost
  let s₀ := (s.withDone false).withHost rest
  have hstep : step s = .next (opGuard (decode w) (firstPos (decode w)) s₀) := step_start ha hhost
  cases hg : guardPasses (decode w) s.phase with
  | false =>
    rw [opGuard_refuses (s := s₀) hg] at hstep
    exact ⟨_, hstep, rfl, rfl, fun _ => ⟨rfl, rfl, rfl, rfl⟩, nofun⟩
  | true =>
    rw [opGuard_passes (s := s₀) hg] at hstep
    have hemitted : Seq.emitted ⟨decode w, s.trace.length, bodyStart (decode w)⟩ (firstPos (decode w) (s₀.withActive true)) = [] := by
      rw [Seq.emitted, firstPos_trace]
      exact List.drop_length
    exact ⟨_, hstep, firstPos_trace .., firstPos_host .., nofun, fun _ => ⟨firstPos_active .., firstPos_done .., firstPos_result ..,
      _, firstPos_seq .., rfl, hemitted, firstPos_phase hg, congrArg bodyStart, bodyStart_of_ne⟩⟩

/-! ## How an accepted operation ends -/

/-- An operation that passes its guard ends in one of its three ways. -/
theorem exec_accepted {i : Instr} {s : State} (hg : guardPasses i s.phase = true) :
    ∃ t, exec i s = .next t ∧ OpEnd i s t ∧ OpFrame i s t := by
  obtain ⟨hrefused, -⟩ | ⟨-, e, f⟩ := exec_cases (exec_runs hg)
  · exact absurd (hg.symm.trans hrefused) nofun
  · exact ⟨_, exec_runs hg, e, f⟩

/-- A failed operation loses the panel's configuration and what its row of R20's table says, and nothing is known of the RAM. -/
theorem panel_of_panelFailed {i : Instr} {s t : State} (h : t.panel = panelFailed s i) :
    t.panel.config = .undefined ∧ ramKnown t = .undefined
    ∧ (i = .initialise → t.panel.ram = .undefined)
    ∧ (i = .updateFrame → t.panel.ram = .undefined)
    ∧ (i = .displayFrame → t.panel.visible = .undefined) := by
  have hconfig : t.panel.config = .undefined := by rw [h]; cases i <;> rfl
  refine ⟨hconfig, by rw [ramKnown, hconfig], ?_, ?_, ?_⟩ <;> rintro rfl <;> rw [h] <;> rfl

/-! ## The first faulting burst -/

/-- Bursts answered `ok` stop short of one that faults. -/
theorem BusOkFor.le_of_fault {n j k : Nat} {e : Env} (h : BusOkFor n e) (hk : e.busAt j = .fault k) : n ≤ j := by
  by_contra hlt
  rw [h j (by omega)] at hk
  cases hk

/-- Settles O20: no operation whose window `j` faults sends all its windows, and the window that ends it is the first that faults. -/
theorem busFaultEndsTheOperation : Obligations.BusFaultEndsTheOperation := by
  unfold Obligations.BusFaultEndsTheOperation
  intro i s j k w hg hw hbus hk
  have hj : j < (opWindows s i).length := (List.getElem?_eq_some_iff.1 hw).1
  obtain ⟨t, hexec, e, f⟩ := exec_accepted hg
  refine ⟨t, hexec, ?_⟩
  cases e with
  | completed _ hall => exact absurd (hall.le_of_fault hk) (by omega)
  | timedOut _ hall => exact absurd (hall.le_of_fault hk) (by omega)
  | faulted j' k' w' hw' hbus' hk' htrace hresult hphase hdc hbusy henv hpanel =>
    obtain rfl : j = j' := Nat.le_antisymm (hbus.le_of_fault hk') (hbus'.le_of_fault hk)
    obtain rfl : k = k' := BusOutcome.fault.inj (hk.symm.trans hk')
    obtain rfl : w = w' := Option.some.inj (hw.symm.trans hw')
    exact ⟨htrace, hresult, hphase, f.idle.1, f.done, f.cs, hdc, hbusy, henv, panel_of_panelFailed hpanel⟩

/-! ## The busy-wait that runs out -/

/-- Settles O21: with good bursts and no low sample among `N_POLL_MAX + 1` an operation that waits neither meets a fault nor completes. -/
theorem busyTimeoutEndsTheOperation : Obligations.BusyTimeoutEndsTheOperation := by
  unfold Obligations.BusyTimeoutEndsTheOperation
  intro i s hsleep hg hbus hhigh
  obtain ⟨t, hexec, e, f⟩ := exec_accepted hg
  refine ⟨t, hexec, ?_⟩
  cases e with
  | completed n _ hwait =>
    obtain ⟨hn, -, hlow⟩ := hwait hsleep
    exact absurd ((hhigh n (by omega)).symm.trans hlow) nofun
  | faulted j k w hw _ hk =>
    have hj : j < (opWindows s i).length := (List.getElem?_eq_some_iff.1 hw).1
    exact absurd (hbus.le_of_fault hk) (by omega)
  | timedOut _ _ _ htrace hresult hphase _ _ hbusy hpanel =>
    exact ⟨htrace, hresult, hphase, f.idle.1, f.done, f.cs, hbusy, panel_of_panelFailed hpanel⟩

end Sys2Proof.Machine
end

-- ==== The latches and the trace (R14, R15, R70, R75) ====
section
/-! PROOFS. The latches and `last_busy` follow the trace through each primitive and, one primitive after another, through each
operation (`Follows`). -/

namespace Sys2Proof.Machine

theorem lastPin_append (l : Line) (v : Option Level) (es es' : List Event) :
    lastPin l v (es ++ es') = lastPin l (lastPin l v es) es' := by
  induction es generalizing v with
  | nil => rfl
  | cons e es ih => cases e <;> exact ih _

theorem lastSample_append (v : Option Level) (es es' : List Event) :
    lastSample v (es ++ es') = lastSample (lastSample v es) es' := by
  induction es generalizing v with
  | nil => rfl
  | cons e es ih => cases e <;> exact ih _

/-- From `s` to `t` some events are emitted, and they say what the latches and `last_busy` hold. -/
def Follows (s t : State) : Prop :=
  ∃ es, t.trace = s.trace ++ es ∧ t.cs = lastPin .cs s.cs es ∧ t.dc = lastPin .dc s.dc es ∧ t.rst = lastPin .rst s.rst es
    ∧ t.lastBusy = lastSample s.lastBusy es

theorem Follows.refl (s : State) : Follows s s := ⟨[], by simp, rfl, rfl, rfl, rfl⟩

theorem Follows.trans {s t u : State} (h : Follows s t) (h' : Follows t u) : Follows s u := by
  obtain ⟨es, htrace, hcs, hdc, hrst, hbusy⟩ := h
  obtain ⟨es', htrace', hcs', hdc', hrst', hbusy'⟩ := h'
  refine ⟨es ++ es', by rw [htrace', htrace, List.append_assoc], ?_, ?_, ?_, ?_⟩
  · rw [hcs', hcs, lastPin_append]
  · rw [hdc', hdc, lastPin_append]
  · rw [hrst', hrst, lastPin_append]
  · rw [hbusy', hbusy, lastSample_append]

/-! ## The primitives -/

theorem Follows.pinWrite {s t : State} (h : Follows s t) (l : Line) (v : Level) : Follows s (pinWrite l v t) :=
  h.trans ⟨[.pin l v], by cases l <;> exact ⟨rfl, rfl, rfl, rfl, rfl⟩⟩

theorem Follows.delay {s t : State} (h : Follows s t) (us : Nat) : Follows s (delay us t) :=
  h.trans ⟨[.delay us], rfl, rfl, rfl, rfl, rfl⟩

theorem Follows.busTransfer {s t : State} (h : Follows s t) (bs : List Byte) : Follows s (busTransfer bs t).2 :=
  h.trans ⟨[.bus bs _], rfl, rfl, rfl, rfl, rfl⟩

theorem Follows.sampleBusy {s t : State} (h : Follows s t) : Follows s (sampleBusy t).2 :=
  h.trans ⟨[.busy _], rfl, rfl, rfl, rfl, rfl⟩

/-! What writes neither a latch, `last_busy` nor the trace does not show. -/

section silent
variable {s t : State} (h : Follows s t)
include h
theorem Follows.withActive (b : Bool) : Follows s (t.withActive b) := h
theorem Follows.withPhase (p : Phase) : Follows s (t.withPhase p) := h
theorem Follows.withTblIdx (n : Option Nat) : Follows s (t.withTblIdx n) := h
theorem Follows.withPollCnt (n : Option Nat) : Follows s (t.withPollCnt n) := h
theorem Follows.withPanel (p : Panel) : Follows s (t.withPanel p) := h
theorem Follows.finish (r : Result) : Follows s (finish r t) := h
theorem Follows.raise (e : Err) (c : Cause) : Follows s (raise e c t) := ((h.withPhase _).withPanel _).finish _
theorem Follows.complete (p : Phase) : Follows s (complete p t) := (h.withPhase _).finish _
end silent

theorem Follows.resetPulse {s t : State} (h : Follows s t) : Follows s (resetPulse t) :=
  ((((h.withPanel _).pinWrite .rst .low).delay _).pinWrite .rst .high).delay _

theorem Follows.sendCommand {s t : State} (h : Follows s t) (c : Byte) : Follows s (sendCommand c t).2 :=
  (((h.pinWrite .dc .low).pinWrite .cs .low).busTransfer [c]).pinWrite .cs .high

theorem Follows.sendData {s t : State} (h : Follows s t) (bs : List Byte) : Follows s (sendData bs t).2 := by
  cases bs with
  | nil => exact h
  | cons b bs => exact (((h.pinWrite .dc .high).pinWrite .cs .low).busTransfer (b :: bs)).pinWrite .cs .high

theorem Follows.sendEntry {s t : State} (h : Follows s t) (e : InitEntry) : Follows s (sendEntry e t).2 := by
  rw [sendEntry_eq]
  split
  · exact h.sendCommand e.cmd
  · exact (h.sendCommand e.cmd).sendData e.params

theorem Follows.sendTable {s t : State} (h : Follows s t) (es : List InitEntry) : Follows s (sendTable es t).2 := by
  induction es generalizing t with
  | nil => exact h
  | cons e es ih =>
    rw [sendTable_cons]
    split
    · exact h.sendEntry e
    · exact ih ((h.sendEntry e).withTblIdx _)

theorem Follows.busyWaitLoop {s t : State} (h : Follows s t) (n : Nat) : Follows s (busyWaitLoop n t).2 := by
  induction n generalizing t with
  | zero =>
    cases hb : t.env.busyAt 0 with
    | low => rw [busyWaitLoop_low hb]; exact h.sampleBusy
    | high => rw [busyWaitLoop_high_zero hb]; exact h.sampleBusy
  | succ n ih =>
    cases hb : t.env.busyAt 0 with
    | low => rw [busyWaitLoop_low hb]; exact h.sampleBusy
    | high => rw [busyWaitLoop_high_succ hb]; exact ih ((h.sampleBusy.delay _).withPollCnt _)

theorem Follows.busyWait {s t : State} (h : Follows s t) : Follows s (busyWait t).2 :=
  (h.withPollCnt _).busyWaitLoop _

/-! ## The operations -/

theorem Follows.bringUp (s : State) : Follows s (bringUp s) :=
  ((((Follows.refl s).withPhase _).pinWrite .cs .high).resetPulse).withTblIdx _

theorem Follows.initialiseBody (s : State) : Follows s (initialiseBody s) := by
  have htable := (Follows.bringUp s).sendTable
  rw [initialiseBody_eq]
  dsimp only
  split
  · exact (htable _).raise _ _
  · split
    · exact (htable _).busyWait.raise _ _
    · exact ((htable _).busyWait.withPanel _).complete _

theorem Follows.updateFrameBody (s : State) : Follows s (updateFrameBody s) := by
  have hcommand := ((Follows.refl s).withPhase .transferringFrame).sendCommand
  rw [updateFrameBody_eq]
  dsimp only
  split
  · exact ((hcommand _).withPanel _).raise _ _
  · split
    · exact (((hcommand _).sendData _).withPanel _).raise _ _
    · split
      · exact ((((hcommand _).sendData _).withPanel _).busyWait.withPanel _).raise _ _
      · exact (((hcommand _).sendData _).withPanel _).busyWait.complete _

theorem Follows.displayFrameBody (s : State) : Follows s (displayFrameBody s) := by
  have hcommand := (Follows.refl s).sendCommand
  rw [displayFrameBody_eq]
  dsimp only
  split
  · exact ((hcommand _).withPanel _).raise _ _
  · split
    · exact (((hcommand _).withPhase _).busyWait.withPanel _).raise _ _
    · exact (((hcommand _).withPhase _).busyWait.withPanel _).complete _

theorem Follows.sleepBody (s : State) : Follows s (sleepBody s) := by
  have hcommand := (Follows.refl s).sendCommand
  rw [sleepBody_eq]
  dsimp only
  split
  · exact (hcommand _).raise _ _
  · split
    · exact ((hcommand _).sendData _).raise _ _
    · exact (((hcommand _).sendData _).withPanel _).complete _

theorem Follows.bodyOf (i : Instr) (s : State) : Follows s (bodyOf i s) :=
  match i with
  | .initialise   => .initialiseBody s
  | .updateFrame  => .updateFrameBody s
  | .displayFrame => .displayFrameBody s
  | .sleep        => .sleepBody s

/-- Settles O33: a refusal emits nothing and leaves the latches, and the body of an accepted operation follows its events. -/
theorem latchesFollowTheTrace : Obligations.LatchesFollowTheTrace := by
  unfold Obligations.LatchesFollowTheTrace
  intro i s t h
  cases hg : guardPasses i s.phase with
  | false => rw [exec_refuses hg] at h; cases h; exact ((Follows.refl s).withActive true).finish _
  | true => rw [exec_runs hg] at h; cases h; exact ((Follows.refl s).withActive true).trans (.bodyOf i _)

end Sys2Proof.Machine
end

-- ==== INITIALIZE (R80, R81, R82, R83, R112) ====
section
/-! PROOFS. INITIALIZE: its completion, what it leaves alone, the phase while it runs, and what it does not remember. For the last:
its bring-up and its end overwrite most fields, and in between nothing reads them (`Unseen`). -/

namespace Sys2Proof.Machine

/-! ## How it ends -/

/-- BUSY clears after one number of high samples only. -/
theorem BusyClearsAfter.unique {w w' : Nat} {e : Env} (h : BusyClearsAfter w e) (h' : BusyClearsAfter w' e) : w = w' := by
  obtain ⟨hhigh, hlow⟩ := h
  obtain ⟨hhigh', hlow'⟩ := h'
  rcases Nat.lt_trichotomy w w' with hlt | heq | hgt
  · exact absurd ((hhigh' w hlt).symm.trans hlow) nofun
  · exact heq
  · exact absurd ((hhigh w' hgt).symm.trans hlow') nofun

/-- BUSY that clears within a bound is not high beyond it. -/
theorem BusyClearsAfter.not_busyHighFor {w n : Nat} {e : Env} (h : BusyClearsAfter w e) (hw : w < n) : ¬ BusyHighFor n e :=
  fun hhigh => absurd ((hhigh w hw).symm.trans h.2) nofun

/-- Settles O16: with good bursts and a BUSY that clears in time INITIALIZE neither meets a fault nor runs out of polls. -/
theorem initializeCompletes : Obligations.InitializeCompletes := by
  unfold Obligations.InitializeCompletes
  intro s w hw hbus hclears
  obtain ⟨t, hexec, e, f⟩ := exec_accepted (i := .initialise) (guardPasses_initialise s.phase)
  refine ⟨t, hexec, ?_⟩
  cases e with
  | completed w' _ hwait htrace hresult hphase _ _ hbusy _ hpanel =>
    obtain rfl : w' = w := (hwait nofun).2.unique hclears
    exact ⟨htrace, hphase, hresult, f.idle.1, f.done, f.cs, f.rst, hbusy, hpanel⟩
  | faulted j k v hv _ hk =>
    have hj : j < (tableWindows s.cfg.initTable).length := (List.getElem?_eq_some_iff.1 hv).1
    exact absurd (hbus.le_of_fault hk) (by omega)
  | timedOut _ _ hhigh => exact absurd hhigh (hclears.not_busyHighFor (by omega))

/-- An empty init table has no window. -/
theorem opWindows_initialise_of_nil {s : State} (h : s.cfg.initTable = []) : opWindows s .initialise = [] := by
  rw [opWindows, h, tableWindows]

/-- Settles O24: no end of INITIALIZE writes `panel_visible`; DC is written by windows alone, and an empty table has none. -/
theorem initializeFrame : Obligations.InitializeFrame := by
  unfold Obligations.InitializeFrame
  intro s t h
  rcases exec_cases h with ⟨hrefused, -⟩ | ⟨-, e, -⟩
  · exact absurd hrefused nofun
  · cases e with
    | completed _ _ _ _ _ _ _ hnil _ _ hpanel =>
      exact ⟨by rw [hpanel]; rfl, fun h => hnil (opWindows_initialise_of_nil h)⟩
    | faulted j k v hv _ _ _ _ _ _ _ _ hpanel =>
      refine ⟨by rw [hpanel]; rfl, fun h => ?_⟩
      rw [opWindows_initialise_of_nil h] at hv
      cases hv
    | timedOut _ _ _ _ _ _ _ hnil _ hpanel =>
      exact ⟨by rw [hpanel]; rfl, fun h => hnil (opWindows_initialise_of_nil h)⟩

/-! ## The phase while it runs -/

@[simp] theorem enterEntry_phase (q : Seq) (s : State) : (enterEntry q s).phase = s.phase := by
  unfold enterEntry; split <;> rfl

/-- After a command or a block of its table INITIALIZE goes on in the same phase (R80, R81). -/
theorem dataSent_initialise_phase (st : Nat) (p : Pos) (s : State) : (dataSent ⟨.initialise, st, p⟩ s).phase = s.phase :=
  enterEntry_phase _ (countEntry s)

theorem commandSent_initialise_phase (st : Nat) (p : Pos) (s : State) : (commandSent ⟨.initialise, st, p⟩ s).phase = s.phase := by
  change (startData ⟨.initialise, st, p⟩ s).phase = s.phase
  unfold startData
  split
  · exact dataSent_initialise_phase st p s
  · rfl

theorem windowStep_initialise_phase {st : Nat} {p : Pos} {k : WireKind} {w : WinPos} {s : State}
    (h : (windowStep ⟨.initialise, st, p⟩ k w s).active = true) : (windowStep ⟨.initialise, st, p⟩ k w s).phase = s.phase := by
  cases w with
  | dc | csLow => rfl
  | burst =>
    simp only [windowStep, burstStep]
    split <;> rfl
  | csHigh r =>
    cases r with
    | fault j => cases k <;> exact absurd h nofun
    | ok =>
      cases k with
      | cmd => exact commandSent_initialise_phase st p _
      | data => exact dataSent_initialise_phase st p _

theorem sampleStep_initialise_phase {st : Nat} {p : Pos} {s : State}
    (h : (sampleStep ⟨.initialise, st, p⟩ s).active = true) : (sampleStep ⟨.initialise, st, p⟩ s).phase = s.phase := by
  cases hb : s.env.busyAt 0 with
  | low =>
    rw [sampleStep_low hb] at h
    exact absurd h nofun
  | high =>
    rw [sampleStep_high hb] at h ⊢
    split at h
    · next hlt => rw [if_pos hlt]; rfl
    · exact absurd h nofun

/-- A small step after which INITIALIZE still runs leaves the phase: it writes it at its ends only (R81). -/
theorem microStep_initialise_phase {st : Nat} {p : Pos} {s : State} (h : (microStep ⟨.initialise, st, p⟩ s).active = true) :
    (microStep ⟨.initialise, st, p⟩ s).phase = s.phase := by
  cases p with
  | csIdle | rstLow | rstLowWait | rstHigh | pollDelay => rfl
  | rstHighWait => exact enterEntry_phase ..
  | window k w => exact windowStep_initialise_phase h
  | sample => exact sampleStep_initialise_phase h

/-- Settles O44: acceptance writes the phase, and a small step either ends INITIALIZE or leaves it running in the same phase. -/
theorem uninitializedWhileInitializeRuns : Obligations.UninitializedWhileInitializeRuns := by
  unfold Obligations.UninitializedWhileInitializeRuns
  refine ⟨fun s => rfl, fun s q hq hop hphase _ hruns => ?_⟩
  obtain ⟨op, st, p⟩ := q
  obtain rfl : op = .initialise := hop
  refine ⟨(microStep_initialise_phase hruns).trans hphase, ?_⟩
  cases microStep_control hq with
  | runs p' hseq => exact ⟨_, hseq, rfl, rfl⟩
  | ended hidle => exact absurd hidle.1 (by simp [hruns])

/-! ## What it does not remember -/

/-- INITIALIZE, from whatever phase: the bring-up, the table, and what follows it (R79, R80). -/
theorem exec_initialise (s : State) :
    exec .initialise s = .next (afterTable (sendTable s.cfg.initTable (bringUp (s.withActive true)))) :=
  (exec_runs (guardPasses_initialise s.phase)).trans (congrArg _ (initialiseBody_eq_afterTable _))

/-- A change of the state that sending the init table neither sees nor undoes. -/
structure Unseen (f : State → State) : Prop where
  sendCommand : ∀ c s, sendCommand c (f s) = ((sendCommand c s).1, f (sendCommand c s).2)
  sendData    : ∀ bs s, sendData bs (f s) = ((sendData bs s).1, f (sendData bs s).2)
  countEntry  : ∀ s, countEntry (f s) = f (countEntry s)

theorem Unseen.sendEntry {f : State → State} (h : Unseen f) (e : InitEntry) (s : State) :
    sendEntry e (f s) = ((sendEntry e s).1, f (sendEntry e s).2) := by
  rw [sendEntry_eq, sendEntry_eq, h.sendCommand]
  cases (Machine.sendCommand e.cmd s).1 with
  | ok => exact h.sendData e.params _
  | fault k => rfl

theorem Unseen.sendTable {f : State → State} (h : Unseen f) (es : List InitEntry) (s : State) :
    sendTable es (f s) = ((sendTable es s).1, f (sendTable es s).2) := by
  induction es generalizing s with
  | nil => rfl
  | cons e es ih =>
    rw [sendTable_cons, sendTable_cons, h.sendEntry]
    cases (Machine.sendEntry e s).1 with
    | ok =>
      dsimp only
      rw [h.countEntry]
      exact ih _
    | fault k => rfl

/-! ### What it overwrites -/

/-- A state without the fields that every end of INITIALIZE overwrites and no part of it reads: the result, the done pulse, the
sequencer position, `byte_idx`, `poll_cnt` and the panel's configuration (R12, R13, R16, R20). -/
def State.forgotten (s : State) : State :=
  { s with result := ⟨.ok, .none⟩, done := false, seq := none, byteIdx := none, pollCnt := none,
           panel := { s.panel with config := .undefined } }

theorem unseen_forgotten : Unseen State.forgotten where
  sendCommand _ _ := rfl
  sendData bs _ := by cases bs <;> rfl
  countEntry _ := rfl

/-- A busy-wait is bounded by its own count of delays, not by `poll_cnt` (R76). -/
theorem busyWaitLoop_forgotten (n : Nat) (s : State) :
    busyWaitLoop n s.forgotten = ((busyWaitLoop n s).1, (busyWaitLoop n s).2.forgotten) := by
  induction n generalizing s with
  | zero =>
    cases h : s.env.busyAt 0 with
    | low => rw [busyWaitLoop_low h, busyWaitLoop_low (s := s.forgotten) h]; rfl
    | high => rw [busyWaitLoop_high_zero h, busyWaitLoop_high_zero (s := s.forgotten) h]; rfl
  | succ n ih =>
    cases h : s.env.busyAt 0 with
    | low => rw [busyWaitLoop_low h, busyWaitLoop_low (s := s.forgotten) h]; rfl
    | high =>
      rw [busyWaitLoop_high_succ h, busyWaitLoop_high_succ (s := s.forgotten) h]
      exact ih (countPoll (delay s.cfg.tPollUs (sampleBusy s).2))

/-- Both ends of INITIALIZE's busy-wait overwrite what is forgotten. -/
theorem afterWait_forgotten (x : WaitResult × State) :
    afterWait .initialise (x.1, x.2.forgotten) = afterWait .initialise x := by
  obtain ⟨_ | _, s⟩ := x <;> rfl

theorem afterWait_busyWaitLoop_forgotten (n : Nat) (s : State) :
    afterWait .initialise (busyWaitLoop n s.forgotten) = afterWait .initialise (busyWaitLoop n s) := by
  rw [busyWaitLoop_forgotten, afterWait_forgotten]

theorem afterWait_busyWait_forgotten (s : State) :
    afterWait .initialise (busyWait s.forgotten) = afterWait .initialise (busyWait s) :=
  -- The two loops start with `poll_cnt` at 0, in states that differ in what is forgotten.
  (afterWait_busyWaitLoop_forgotten _ (s.forgotten.withPollCnt (some 0))).symm.trans
    (afterWait_busyWaitLoop_forgotten _ (s.withPollCnt (some 0)))

/-- So does whatever follows its table. -/
theorem afterTable_forgotten (x : BusOutcome × State) : afterTable (x.1, x.2.forgotten) = afterTable x := by
  obtain ⟨_ | k, s⟩ := x
  · exact afterWait_busyWait_forgotten s
  · rfl

theorem afterTable_sendTable_forgotten (es : List InitEntry) (s : State) :
    afterTable (sendTable es s.forgotten) = afterTable (sendTable es s) := by
  rw [unseen_forgotten.sendTable, afterTable_forgotten]

/-- From its table on INITIALIZE does the same in two states that differ in what is forgotten. -/
theorem afterTable_sendTable_congr {s t : State} (h : s.forgotten = t.forgotten) (es : List InitEntry) :
    afterTable (sendTable es s) = afterTable (sendTable es t) := by
  rw [← afterTable_sendTable_forgotten es s, h, afterTable_sendTable_forgotten]

/-! ### DC and the last sample of BUSY -/

/-- A command drives DC before its burst, whatever DC was (R73). -/
theorem sendTable_withDc {es : List InitEntry} (h : es ≠ []) (s : State) (v : Option Level) :
    sendTable es (s.withDc v) = sendTable es s := by
  cases es with
  | nil => exact absurd rfl h
  | cons e es =>
    have hcommand : sendCommand e.cmd (s.withDc v) = sendCommand e.cmd s := rfl
    rw [sendTable_cons, sendTable_cons, sendEntry_eq, sendEntry_eq, hcommand]

theorem unseen_withLastBusy (v : Option Level) : Unseen (·.withLastBusy v) where
  sendCommand _ _ := rfl
  sendData bs _ := by cases bs <;> rfl
  countEntry _ := rfl

/-- A busy-wait begins with a sample, whatever the last one was (R76). -/
theorem busyWaitLoop_withLastBusy (n : Nat) (s : State) (v : Option Level) :
    busyWaitLoop n (s.withLastBusy v) = busyWaitLoop n s := by
  have hsample : sampleBusy (s.withLastBusy v) = sampleBusy s := rfl
  unfold busyWaitLoop
  rw [hsample]

theorem busyWait_withLastBusy (s : State) (v : Option Level) : busyWait (s.withLastBusy v) = busyWait s :=
  busyWaitLoop_withLastBusy _ (s.withPollCnt (some 0)) v

/-- Unless a burst faulted, the last sample of BUSY is lost in the busy-wait after the table. -/
theorem afterTable_withLastBusy {x : BusOutcome × State} (h : (afterTable x).result ≠ ⟨.hardwareInitError, .busFault⟩)
    (v : Option Level) : afterTable (x.1, x.2.withLastBusy v) = afterTable x := by
  obtain ⟨_ | k, s⟩ := x
  · simp only [afterTable, busyWait_withLastBusy]
  · exact absurd rfl h

/-- Settles O42: the bring-up leaves the two states different in what is forgotten, in DC, or in the last sample only. -/
theorem initializeForgetsTheSession : Obligations.InitializeForgetsTheSession := by
  unfold Obligations.InitializeForgetsTheSession
  refine ⟨fun s p r a d c v q n b k g m => ?_, fun s v htable => ?_, fun s t v h hresult => ?_⟩
  · rw [exec_initialise, exec_initialise]
    refine congrArg Host.Outcome.next (afterTable_sendTable_congr ?_ s.cfg.initTable)
    rfl
  · have hsame := sendTable_withDc htable (bringUp (s.withActive true)) v
    rw [exec_initialise, exec_initialise]
    exact congrArg (Host.Outcome.next ∘ afterTable) hsame
  · have hsent := (unseen_withLastBusy v).sendTable s.cfg.initTable (bringUp (s.withActive true))
    rw [exec_initialise] at h ⊢
    cases h
    exact congrArg Host.Outcome.next ((congrArg afterTable hsent).trans (afterTable_withLastBusy hresult v))

end Sys2Proof.Machine
end

-- ==== UPDATE_FRAME (R85, R86, R87) ====
section
/-! PROOFS. UPDATE_FRAME: its completion and what it leaves alone. What does not depend on the operation is said first, for every
operation: a sound bus and a BUSY that clears in time leave it one way to end, and an end leaves the ghost state in one of two ways. -/

namespace Sys2Proof.Machine

/-! ## The end of any operation -/

/-- With good bursts and a BUSY that clears in time an operation that waits neither meets a fault nor runs out of polls. -/
theorem exec_completes {i : Instr} {s : State} {w : Nat} (hsleep : i ≠ .sleep) (hg : guardPasses i s.phase = true)
    (hw : w ≤ s.cfg.nPollMax) (hbus : BusOkFor (opWindows s i).length s.env) (hclears : BusyClearsAfter w s.env) :
    ∃ t, exec i s = .next t ∧ OpFrame i s t
      ∧ t.trace = s.trace ++ opPrelude s.cfg i ++ okTrace (opWindows s i) ++ waitTrace s.cfg.tPollUs w
      ∧ t.result = ⟨.ok, .none⟩ ∧ t.phase = targetPhase i
      ∧ (∀ v, (opWindows s i).getLast? = some v → t.dc = some (dcLevel v.1))
      ∧ t.lastBusy = some .low ∧ t.panel = panelOk s i := by
  obtain ⟨t, hexec, e, f⟩ := exec_accepted hg
  refine ⟨t, hexec, f, ?_⟩
  cases e with
  | completed w' _ hwait htrace hresult hphase hdc _ hbusy _ hpanel =>
    obtain rfl : w' = w := (hwait hsleep).2.unique hclears
    rw [if_neg hsleep] at htrace hbusy
    exact ⟨htrace, hresult, hphase, hdc, hbusy, hpanel⟩
  | faulted j k v hv _ hk =>
    have hj : j < (opWindows s i).length := (List.getElem?_eq_some_iff.1 hv).1
    exact absurd (hbus.le_of_fault hk) (by omega)
  | timedOut _ _ hhigh => exact absurd hhigh (hclears.not_busyHighFor (by omega))

/-- An accepted operation leaves the ghost state as its row of R20's table says of its success, or of its failure. -/
theorem OpEnd.panel_cases {i : Instr} {s t : State} (e : OpEnd i s t) : t.panel = panelOk s i ∨ t.panel = panelFailed s i := by
  cases e with
  | completed _ _ _ _ _ _ _ _ _ _ hpanel => exact .inl hpanel
  | faulted _ _ _ _ _ _ _ _ _ _ _ _ hpanel => exact .inr hpanel
  | timedOut _ _ _ _ _ _ _ _ _ hpanel => exact .inr hpanel

/-- INITIALIZE alone writes RESET (R77, R80). -/
theorem OpFrame.rst_of_ne {i : Instr} {s t : State} (f : OpFrame i s t) (hi : i ≠ .initialise) : t.rst = s.rst :=
  f.rst.trans (if_neg hi)

/-! ## UPDATE_FRAME -/

/-- The windows of UPDATE_FRAME: the write-RAM command, then the whole of a framebuffer that is not empty (R4, R85). -/
theorem opWindows_updateFrame {s : State} (h : 0 < s.cfg.fbBytes) :
    opWindows s .updateFrame = [(.cmd, [s.cfg.cmdWriteRam]), (.data, frame s)] := by
  have hframe : frame s ≠ [] := List.ne_nil_of_length_pos (by rwa [frame_length])
  rw [opWindows, dataWindows_of_ne hframe]

/-- Settles O17: it completes as every operation that waits does, and its two windows are the command and the frame. -/
theorem updateFrameCompletes : Obligations.UpdateFrameCompletes := by
  unfold Obligations.UpdateFrameCompletes
  intro s w hready hfb hw hbus hclears
  have hwindows := opWindows_updateFrame hfb
  have hg : guardPasses .updateFrame s.phase = true := by rw [hready, guardPasses_ready]
  obtain ⟨t, hexec, f, htrace, hresult, hphase, hdc, hbusy, hpanel⟩ :=
    exec_completes (i := .updateFrame) nofun hg hw (by rwa [hwindows]) hclears
  rw [hwindows] at htrace hdc
  refine ⟨t, hexec, ?_, hphase, hresult, f.idle.1, f.done, f.cs, hdc _ rfl, hbusy, hpanel⟩
  simpa [opPrelude] using htrace

/-- Settles O25: a refusal writes no line and no ghost field, and neither end of an accepted UPDATE_FRAME writes `panel_visible`. -/
theorem updateFrameFrame : Obligations.UpdateFrameFrame := by
  unfold Obligations.UpdateFrameFrame
  intro s t h
  rcases exec_cases h with ⟨-, rfl⟩ | ⟨hg, e, f⟩
  · exact ⟨rfl, rfl, fun _ => ⟨rfl, rfl, rfl, rfl, rfl, rfl, rfl⟩⟩
  · have hvisible : t.panel.visible = s.panel.visible := by
      rcases e.panel_cases with hpanel | hpanel <;> rw [hpanel] <;> rfl
    exact ⟨f.rst_of_ne nofun, hvisible, fun hready => absurd (hg.symm.trans (guardPasses_eq_false.2 ⟨nofun, hready⟩)) nofun⟩

end Sys2Proof.Machine
end

-- ==== DISPLAY_FRAME (R90, R91, R92, R93) ====
section
/-! PROOFS. DISPLAY_FRAME: its completion, what it leaves alone and the bound of its busy-wait; the wire view of operations that
complete; and that no operation but UPDATE_FRAME reads `fb`. -/

namespace Sys2Proof.Machine

/-! ## Its completion and its frame -/

/-- Settles O18: it completes as every operation that waits does, and its one window is the refresh command. -/
theorem displayFrameCompletes : Obligations.DisplayFrameCompletes := by
  unfold Obligations.DisplayFrameCompletes
  intro s w hready hw hbus hclears
  have hg : guardPasses .displayFrame s.phase = true := by rw [hready, guardPasses_ready]
  obtain ⟨t, hexec, f, htrace, hresult, hphase, hdc, hbusy, hpanel⟩ :=
    exec_completes (i := .displayFrame) nofun hg hw hbus hclears
  refine ⟨t, hexec, ?_, hphase, hresult, f.idle.1, f.done, f.cs, hdc _ rfl, hbusy, hpanel⟩
  simpa [opPrelude, opWindows] using htrace

/-- Settles O26: a refusal writes no line and no ghost field, and neither end of an accepted DISPLAY_FRAME writes `panel_ram`. -/
theorem displayFrameFrame : Obligations.DisplayFrameFrame := by
  unfold Obligations.DisplayFrameFrame
  intro s t h
  rcases exec_cases h with ⟨-, rfl⟩ | ⟨hg, e, f⟩
  · exact ⟨rfl, rfl, fun _ => ⟨rfl, rfl, rfl, rfl, rfl, rfl, rfl⟩⟩
  · have hram : t.panel.ram = s.panel.ram := by
      rcases e.panel_cases with hpanel | hpanel <;> rw [hpanel] <;> rfl
    exact ⟨f.rst_of_ne nofun, hram, fun hready => absurd (hg.symm.trans (guardPasses_eq_false.2 ⟨nofun, hready⟩)) nofun⟩

/-! ## The bound of its busy-wait

Every poll of a busy-wait is one sample and one delay (R76). -/

theorem length_pollTrace (us n : Nat) : (pollTrace us n).length = 2 * n := by
  induction n with
  | zero => rfl
  | succ n ih => exact congrArg (· + 2) ih

theorem countP_isBusy_pollTrace (us n : Nat) : (pollTrace us n).countP isBusy = n := by
  induction n with
  | zero => rfl
  | succ n ih => simp [pollTrace, List.countP_cons, isBusy, ih]

theorem countP_isDelay_pollTrace (us n : Nat) : (pollTrace us n).countP isDelay = n := by
  induction n with
  | zero => rfl
  | succ n ih => simp [pollTrace, List.countP_cons, isDelay, ih]

theorem requestedDelay_append (es es' : List Event) : requestedDelay (es ++ es') = requestedDelay es + requestedDelay es' := by
  induction es with
  | nil => simp [requestedDelay]
  | cons e es ih => cases e <;> simp [requestedDelay, ih, Nat.add_assoc]

theorem requestedDelay_pollTrace (us n : Nat) : requestedDelay (pollTrace us n) = n * us := by
  induction n with
  | zero => simp [pollTrace, requestedDelay]
  | succ n ih => simp [pollTrace, requestedDelay, ih, Nat.succ_mul, Nat.add_comm]

/-- Settles O22: it ends as every operation whose BUSY stays high does, with the refresh command's window and the whole busy-wait,
and the counts are those of the polls, the last sample and the window, which has neither a sample nor a delay. -/
theorem refreshTimeoutIsBounded : Obligations.RefreshTimeoutIsBounded := by
  unfold Obligations.RefreshTimeoutIsBounded
  intro s hready hbus hhigh
  have hg : guardPasses .displayFrame s.phase = true := by rw [hready, guardPasses_ready]
  obtain ⟨t, hexec, htrace, hresult, -⟩ := busyTimeoutEndsTheOperation .displayFrame s nofun hg hbus hhigh
  refine ⟨t, commandTrace s.cfg.cmdRefresh .ok ++ timeoutTrace s.cfg.tPollUs s.cfg.nPollMax, hexec, ?_, hresult, ?_, ?_, ?_, ?_⟩
  · simpa [opPrelude, opWindows] using htrace
  · rw [List.length_append, timeoutTrace, List.length_append, length_pollTrace]
    rfl
  · simp [commandTrace, timeoutTrace, countP_isBusy_pollTrace, isBusy]
  · simp [commandTrace, timeoutTrace, countP_isDelay_pollTrace, isDelay]
  · simp [commandTrace, timeoutTrace, requestedDelay_append, requestedDelay_pollTrace, requestedDelay, Cfg.busyTimeoutUs]

/-! ## The wire view -/

@[simp] theorem kindOfDc_dcLevel (k : WireKind) : kindOfDc (dcLevel k) = k := by cases k <;> rfl

/-- The wire view of later events starts from the level the earlier ones left DC at (R9). -/
theorem wireFrom_append (v : Option Level) (es es' : List Event) :
    wireFrom v (es ++ es') = wireFrom v es ++ wireFrom (lastPin .dc v es) es' := by
  induction es generalizing v with
  | nil => rfl
  | cons e es ih =>
    cases e with
    | pin l x => cases l <;> exact ih _
    | bus bs r => simp [wireFrom, lastPin, ih]
    | delay us | busy x => exact ih v

/-- The bytes of windows, each with its window's kind. -/
def windowBytes (ws : List (WireKind × List Byte)) : List (WireKind × Byte) := ws.flatMap fun w => w.2.map fun b => (w.1, b)

@[simp] theorem windowBytes_cons (w : WireKind × List Byte) (ws : List (WireKind × List Byte)) :
    windowBytes (w :: ws) = w.2.map (fun b => (w.1, b)) ++ windowBytes ws := rfl

/-- The bytes of a data block, also of an empty one, which has no window (R74). -/
theorem windowBytes_dataWindows (bs : List Byte) : windowBytes (dataWindows bs) = bs.map fun b => (WireKind.data, b) := by
  by_cases h : bs = []
  · rw [h]; rfl
  · rw [dataWindows_of_ne h]; exact List.append_nil _

/-- Windows that are all answered `ok` deliver their bytes: a window drives DC for its own kind, so DC before does not matter. -/
theorem wireFrom_okTrace (v : Option Level) (ws : List (WireKind × List Byte)) : wireFrom v (okTrace ws) = windowBytes ws := by
  induction ws generalizing v with
  | nil => rfl
  | cons w ws ih => simp [windowTrace, wireFrom, delivered, ih]

theorem wireFrom_pollTrace (v : Option Level) (us n : Nat) : wireFrom v (pollTrace us n) = [] := by
  induction n with
  | zero => rfl
  | succ n ih => exact ih

/-- A busy-wait puts nothing on the wire. -/
theorem wireFrom_waitTrace (v : Option Level) (us n : Nat) : wireFrom v (waitTrace us n) = [] := by
  rw [waitTrace, wireFrom_append, wireFrom_pollTrace]
  rfl

/-- The reset pulse of INITIALIZE puts nothing on the wire. -/
theorem wireFrom_opPrelude (v : Option Level) (c : Cfg) (i : Instr) : wireFrom v (opPrelude c i) = [] := by cases i <;> rfl

/-- Of the ends of an accepted operation only the completion answers Ok, and its events put on the wire what its windows hold. -/
theorem OpEnd.wire_of_ok {i : Instr} {s t : State} (e : OpEnd i s t) (hok : t.result = ⟨.ok, .none⟩) :
    ∃ es, t.trace = s.trace ++ es ∧ ∀ v, wireFrom v es = windowBytes (opWindows s i) := by
  cases e with
  | completed w _ _ htrace =>
    refine ⟨opPrelude s.cfg i ++ (okTrace (opWindows s i) ++ if i = .sleep then [] else waitTrace s.cfg.tPollUs w),
      by simpa using htrace, fun v => ?_⟩
    have hwait (v : Option Level) : wireFrom v (if i = .sleep then [] else waitTrace s.cfg.tPollUs w) = [] := by
      split
      · rfl
      · exact wireFrom_waitTrace ..
    rw [wireFrom_append, wireFrom_append, wireFrom_opPrelude, wireFrom_okTrace, hwait, List.append_nil, List.nil_append]
  | faulted _ _ _ _ _ _ _ hresult => cases i <;> exact absurd (hresult.symm.trans hok) nofun
  | timedOut _ _ _ _ hresult => cases i <;> exact absurd (hresult.symm.trans hok) nofun

/-- An operation that answers Ok was not refused: its windows went out, and it leaves the panel as R20 says of its success. -/
theorem exec_wire_of_ok {i : Instr} {s t : State} (h : exec i s = .next t) (hok : t.result = ⟨.ok, .none⟩) :
    t.cfg = s.cfg ∧ t.panel = panelOk s i
      ∧ ∃ es, t.trace = s.trace ++ es ∧ ∀ v, wireFrom v es = windowBytes (opWindows s i) := by
  have hpanel : t.panel = panelOk s i := by rw [exec_panel h, hok]; exact if_pos rfl
  rcases exec_cases h with ⟨-, rfl⟩ | ⟨-, e, f⟩
  · exact absurd hok nofun
  · exact ⟨f.cfg, hpanel, e.wire_of_ok hok⟩

/-- Settles O36: the windows of the two operations are the write-RAM command, the frame and the refresh command, and DISPLAY_FRAME
shows the RAM that UPDATE_FRAME left. -/
theorem frameThenRefreshOnTheWire : Obligations.FrameThenRefreshOnTheWire := by
  unfold Obligations.FrameThenRefreshOnTheWire
  intro s t u hupdate hok hdisplay hok'
  obtain ⟨hcfg, hpanel, es, htrace, hwire⟩ := exec_wire_of_ok hupdate hok
  obtain ⟨-, hpanel', es', htrace', hwire'⟩ := exec_wire_of_ok hdisplay hok'
  refine ⟨es ++ es', by rw [htrace', htrace, List.append_assoc], ?_, ?_⟩
  · rw [wireView, wireFrom_append, hwire, hwire']
    simp only [opWindows, windowBytes_cons, windowBytes_dataWindows, hcfg]
    rfl
  · rw [hpanel', panelOk, hpanel, panelOk]

/-! ## What reads the framebuffer -/

theorem unseen_withFb (m : Memory) : Unseen (·.withFb m) where
  sendCommand _ _ := rfl
  sendData bs _ := by cases bs <;> rfl
  countEntry _ := rfl

theorem busyWaitLoop_withFb (n : Nat) (s : State) (m : Memory) :
    busyWaitLoop n (s.withFb m) = ((busyWaitLoop n s).1, (busyWaitLoop n s).2.withFb m) := by
  have hsample : sampleBusy (s.withFb m) = ((sampleBusy s).1, (sampleBusy s).2.withFb m) := rfl
  unfold busyWaitLoop
  rw [hsample]
  obtain ⟨_ | _, t⟩ := sampleBusy s
  · rfl
  · cases n with
    | zero => rfl
    | succ n => exact busyWaitLoop_withFb n (countPoll (delay t.cfg.tPollUs t)) m

theorem busyWait_withFb (s : State) (m : Memory) : busyWait (s.withFb m) = ((busyWait s).1, (busyWait s).2.withFb m) :=
  busyWaitLoop_withFb _ (s.withPollCnt (some 0)) m

theorem initialiseBody_withFb (s : State) (m : Memory) : initialiseBody (s.withFb m) = (initialiseBody s).withFb m := by
  have hsent := (unseen_withFb m).sendTable s.cfg.initTable (bringUp s)
  rw [initialiseBody_eq_afterTable, initialiseBody_eq_afterTable]
  refine (congrArg afterTable hsent).trans ?_
  obtain ⟨_ | k, t⟩ := sendTable s.cfg.initTable (bringUp s)
  · dsimp only [afterTable]
    rw [busyWait_withFb]
    obtain ⟨_ | _, u⟩ := busyWait t <;> rfl
  · rfl

theorem displayFrameBody_withFb (s : State) (m : Memory) : displayFrameBody (s.withFb m) = (displayFrameBody s).withFb m := by
  have hphase (t : State) : (t.withFb m).withPhase .refreshing = (t.withPhase .refreshing).withFb m := rfl
  unfold displayFrameBody
  rw [State.withFb_cfg, (unseen_withFb m).sendCommand]
  obtain ⟨_ | k, t⟩ := sendCommand s.cfg.cmdRefresh s
  · dsimp only
    rw [hphase, busyWait_withFb]
    obtain ⟨_ | _, u⟩ := busyWait (t.withPhase .refreshing) <;> rfl
  · rfl

theorem sleepBody_withFb (s : State) (m : Memory) : sleepBody (s.withFb m) = (sleepBody s).withFb m := by
  unfold sleepBody
  rw [State.withFb_cfg, (unseen_withFb m).sendCommand]
  obtain ⟨_ | k, t⟩ := sendCommand s.cfg.cmdSleep s
  · dsimp only
    rw [State.withFb_cfg, (unseen_withFb m).sendData]
    obtain ⟨_ | k, u⟩ := sendData t.cfg.sleepParams t <;> rfl
  · rfl

/-- The bodies of the others neither read nor write `fb` (R83(g), R92(c)). -/
theorem bodyOf_withFb {i : Instr} (hi : i ≠ .updateFrame) (s : State) (m : Memory) :
    bodyOf i (s.withFb m) = (bodyOf i s).withFb m := by
  cases i with
  | initialise => exact initialiseBody_withFb s m
  | updateFrame => exact absurd rfl hi
  | displayFrame => exact displayFrameBody_withFb s m
  | sleep => exact sleepBody_withFb s m

/-- Settles O41: the guard reads the phase alone, a refusal only finishes, and the three bodies do not see `fb`. -/
theorem onlyUpdateFrameReadsTheFramebuffer : Obligations.OnlyUpdateFrameReadsTheFramebuffer := by
  unfold Obligations.OnlyUpdateFrameReadsTheFramebuffer
  intro i s t m hi h
  cases hg : guardPasses i s.phase with
  | false =>
    rw [exec_refuses hg] at h
    cases h
    exact exec_refuses (s := s.withFb m) hg
  | true =>
    rw [exec_runs hg] at h
    cases h
    exact (exec_runs (s := s.withFb m) hg).trans (congrArg _ (bodyOf_withFb hi (s.withActive true) m))

end Sys2Proof.Machine
end

-- ==== SLEEP (R95, R96, R97, R98) ====
section
/-! PROOFS. SLEEP: its completion, what it leaves alone, and that its events are windows only, so that none of them is a sample of BUSY
or a delay. -/

namespace Sys2Proof.Machine

/-! ## Its ends -/

/-- A panel that SLEEP left, asleep or in doubt after a failure, has a RAM of which nothing is known (U13). -/
theorem OpEnd.ramKnown_sleep {s t : State} (e : OpEnd .sleep s t) : ramKnown t = .undefined := by
  rcases e.panel_cases with hpanel | hpanel
  · rw [ramKnown, hpanel]; rfl
  · exact (panel_of_panelFailed hpanel).2.1

/-- Neither end of SLEEP asks BUSY: the last sample stands, and so do the levels still to come (R95). -/
theorem OpEnd.busy_of_sleep {s t : State} (e : OpEnd .sleep s t) :
    t.lastBusy = s.lastBusy ∧ ∀ n, t.env.busyAt n = s.env.busyAt n := by
  cases e with
  | completed _ _ _ _ _ _ _ _ hbusy henv => exact ⟨hbusy, henv rfl⟩
  | faulted _ _ _ _ _ _ _ _ _ _ hbusy henv => exact ⟨hbusy, henv⟩
  | timedOut hsleep => exact absurd rfl hsleep

/-! ## Its completion -/

/-- With a check code that is not empty (R4) the windows of SLEEP are the sleep command and the check code (R95). -/
theorem opWindows_sleep {s : State} (h : s.cfg.sleepParams ≠ []) :
    opWindows s .sleep = [(.cmd, [s.cfg.cmdSleep]), (.data, s.cfg.sleepParams)] := by rw [opWindows, dataWindows_of_ne h]

/-- Settles O19: with good bursts no window faults, and it has no busy-wait that could run out; the last window is the check code. -/
theorem sleepCompletes : Obligations.SleepCompletes := by
  unfold Obligations.SleepCompletes
  intro s hready hbus
  have hg : guardPasses .sleep s.phase = true := by rw [hready, guardPasses_ready]
  obtain ⟨t, hexec, e, f⟩ := exec_accepted hg
  have hram := e.ramKnown_sleep
  refine ⟨t, hexec, ?_⟩
  cases e with
  | completed _ _ _ htrace hresult hphase hdc _ hbusy henv hpanel =>
    have hdcHigh (hparams : s.cfg.sleepParams ≠ []) : t.dc = some .high :=
      hdc (.data, s.cfg.sleepParams) (by rw [opWindows_sleep hparams]; rfl)
    exact ⟨by simpa [opPrelude] using htrace, hphase, hresult, f.idle.1, f.done, f.cs, hdcHigh, hbusy, henv rfl, hpanel, hram⟩
  | faulted j k v hv _ hk =>
    have hj : j < (opWindows s .sleep).length := (List.getElem?_eq_some_iff.1 hv).1
    exact absurd (hbus.le_of_fault hk) (by omega)
  | timedOut hsleep => exact absurd rfl hsleep

/-! ## Its frame -/

/-- Settles O27: a refusal writes no line and no ghost field, and neither end of an accepted SLEEP asks BUSY or writes `panel_ram` or
`panel_visible`. -/
theorem sleepFrame : Obligations.SleepFrame := by
  unfold Obligations.SleepFrame
  intro s t h
  rcases exec_cases h with ⟨hg, rfl⟩ | ⟨hg, e, f⟩
  · exact ⟨rfl, rfl, rfl, rfl, fun _ => rfl, fun hready => absurd hready (guardPasses_eq_false.1 hg).2,
      fun _ => ⟨rfl, rfl, rfl, rfl, rfl, rfl⟩⟩
  · have hghost : t.panel.ram = s.panel.ram ∧ t.panel.visible = s.panel.visible := by
      rcases e.panel_cases with hpanel | hpanel <;> rw [hpanel] <;> exact ⟨rfl, rfl⟩
    obtain ⟨hbusy, henv⟩ := e.busy_of_sleep
    exact ⟨f.rst_of_ne nofun, hbusy, hghost.1, hghost.2, henv, fun _ => e.ramKnown_sleep,
      fun hready => absurd (hg.symm.trans (guardPasses_eq_false.2 ⟨nofun, hready⟩)) nofun⟩

/-! ## Its events -/

/-- Among the events is neither a sample of BUSY nor a delay. -/
def NoWait (es : List Event) : Prop := es.any isBusy = false ∧ es.any isDelay = false

theorem NoWait.append {es es' : List Event} (h : NoWait es) (h' : NoWait es') : NoWait (es ++ es') := by
  simp only [NoWait, List.any_append, h.1, h.2, h'.1, h'.2, Bool.or_self, and_self]

theorem noWait_windowTrace (w : WireKind × List Byte) (r : BusOutcome) : NoWait (windowTrace w r) := ⟨rfl, rfl⟩

theorem noWait_okTrace (ws : List (WireKind × List Byte)) : NoWait (okTrace ws) := by
  induction ws with
  | nil => exact ⟨rfl, rfl⟩
  | cons w ws ih => exact (noWait_windowTrace w .ok).append ih

/-- Settles O35: a refusal emits nothing; completed, SLEEP emits its windows, and failed, those before the faulting one and that one. -/
theorem sleepNeitherSamplesNorWaits : Obligations.SleepNeitherSamplesNorWaits := by
  unfold Obligations.SleepNeitherSamplesNorWaits
  intro s t h
  rcases exec_cases h with ⟨-, rfl⟩ | ⟨-, e, -⟩
  · exact ⟨[], (List.append_nil _).symm, rfl, rfl⟩
  · cases e with
    | completed _ _ _ htrace =>
      exact ⟨okTrace (opWindows s .sleep), by simpa [opPrelude] using htrace, noWait_okTrace _⟩
    | faulted j k v _ _ _ htrace =>
      exact ⟨okTrace ((opWindows s .sleep).take j) ++ windowTrace v (.fault (k % v.2.length)),
        by simpa [opPrelude] using htrace, (noWait_okTrace _).append (noWait_windowTrace ..)⟩
    | timedOut hsleep => exact absurd rfl hsleep

end Sys2Proof.Machine
end

-- ==== What an idle block refuses, and how long a quiet host lets an operation run (R101, R111, R120) ====
section
/-! PROOFS. Outside Ready an idle block refuses every operation but INITIALIZE, so that it stands until that one, a block reset or
a power cycle; and the step of a running operation under a quiet host (O54), iterated. -/

namespace Sys2Proof.Machine

/-! ## A quiet host (R120, R146) -/

/-- A quiet run is quiet now. -/
theorem QuietRun.now {n : Nat} {s : State} (h : QuietRun (n + 1) s) : QuietHost s := h 0 n.succ_pos s rfl

/-- A quiet run is one step shorter after each step. -/
theorem QuietRun.next {n : Nat} {s t : State} (h : QuietRun (n + 1) s) (ht : step s = .next t) : QuietRun n t :=
  fun m hm u hu => h (m + 1) (Nat.succ_lt_succ hm) u ((run_next ht).trans hu)

/-- Settles O55, by induction on the number of steps: each quiet step goes on with the operation or ends it (O54). -/
theorem quietHostNeverCutsAnOperation : Obligations.QuietHostNeverCutsAnOperation := by
  unfold Obligations.QuietHostNeverCutsAnOperation
  intro n
  induction n with
  | zero => exact fun s q hact hseq _ => .inl ⟨s, q, rfl, hact, hseq, rfl, rfl, rfl, List.prefix_refl _⟩
  | succ n ih =>
    intro s q hact hseq hquiet
    obtain ⟨t, hstep⟩ : ∃ t, step s = .next t := ⟨_, step_running hact hseq hquiet.now⟩
    have hrun (m : Nat) := run_next (n := m) hstep
    obtain ⟨hevents, hcontrol⟩ := onlyResetCutsAnOperation s t q hact hseq hquiet.now hstep
    have hprefix : s.trace <+: t.trace := by
      rcases hevents with h | ⟨e, h⟩ <;> rw [h]
      exact List.prefix_append ..
    rcases hcontrol with ⟨hact', -, hresult, q', hseq', hop, hstart⟩ | ⟨hidle, hdone, hlegal, hown⟩
    · rcases ih t q' hact' hseq' (hquiet.next hstep) with
        ⟨u, q'', hu, huact, huseq, huop, hustart, huresult, hutrace⟩ | ⟨m, hm, u, hu, hidle, hdone, hlegal, hown, hutrace⟩
      · exact .inl ⟨u, q'', (hrun n).trans hu, huact, huseq, huop.trans hop, hustart.trans hstart, huresult.trans hresult,
          hprefix.trans hutrace⟩
      · exact .inr ⟨m + 1, Nat.succ_le_succ hm, u, (hrun m).trans hu, hidle, hdone, hlegal, hown, hprefix.trans hutrace⟩
    · exact .inr ⟨1, Nat.succ_pos n, t, hrun 0, hidle, hdone, hlegal, hown, hprefix⟩

/-! ## Refusal (R79, R101) -/

/-- What a refusal clears is clear between operations. -/
theorem Idle.refuse_eq {s : State} (h : Idle s) :
    refuse (s.withActive true) = (s.withResult ⟨.illegalState, .none⟩).withDone true := by
  obtain ⟨ha, hseq, htbl, hbyte, hpoll⟩ := h
  ext1 <;> simp [*]

/-- Settles O14: the guard does not pass, and a refusal of an idle block writes the result and the done pulse. -/
theorem refusedOutsideReady : Obligations.RefusedOutsideReady := by
  unfold Obligations.RefusedOutsideReady
  intro i s hidle hi hready
  rw [exec_refuses (guardPasses_eq_false.2 ⟨hi, hready⟩), hidle.refuse_eq]

/-! ## Leaving Faulted and Sleeping (R97, R111) -/

/-- A word is INITIALIZE's op_code or selects another operation. -/
theorem decode_ne_initialise {w : OpWord} (h : w ≠ encode .initialise) : decode w ≠ .initialise :=
  fun hw => h (by rw [← hw, encode_decode])

/-- The block stands from `s` to `t`: no operation runs, and neither the phase nor the trace has changed. -/
def Stands (s t : State) : Prop := t.phase = s.phase ∧ t.active = false ∧ t.trace = s.trace

/-- An idle block stands while time passes (R131). -/
theorem advance_stands {s t : State} (ha : s.active = false) (h : advance s = .next t) : Stands s t := by
  rw [advance, ha, if_neg Bool.false_ne_true] at h
  cases h
  exact ⟨rfl, ha, rfl⟩

/-- Outside Ready an idle block stands, whatever the host does but INITIALIZE, block reset and a power cycle. -/
theorem hostStep_stands {a : HostAction} {s t : State} (ha : s.active = false) (hready : s.phase ≠ .ready)
    (hcall : a ≠ .call (encode .initialise)) (hstart : a ≠ .start (encode .initialise)) (hreset : a ≠ .blockReset)
    (hpower : a ≠ .powerCycle) (h : hostStep a s = .next t) : Stands s t := by
  have hrefused {w : OpWord} (hw : w ≠ encode .initialise) : guardPasses (decode w) s.phase = false :=
    guardPasses_eq_false.2 ⟨decode_ne_initialise hw, hready⟩
  cases a with
  | call w =>
    rw [hostStep, exec_refuses (hrefused fun hw => hcall (hw ▸ rfl))] at h
    cases h
    exact ⟨rfl, rfl, rfl⟩
  | start w =>
    rw [hostStep, startOp, opGuard_refuses (hrefused fun hw => hstart (hw ▸ rfl))] at h
    cases h
    exact ⟨rfl, rfl, rfl⟩
  | idle => exact advance_stands ha h
  | memWrite addr bs =>
    rw [hostStep, memWrite] at h
    split at h
    · cases h; exact ⟨rfl, ha, rfl⟩
    · cases h
  | fbLoad bs =>
    obtain ⟨m, e, hload⟩ := exists_fbLoad_eq bs s
    rw [hostStep, hload] at h
    cases h
    exact ⟨rfl, ha, rfl⟩
  | blockReset => exact absurd rfl hreset
  | powerCycle => exact absurd rfl hpower

/-- Settles O43: Faulted and Sleeping are not Ready, so with the four actions excluded the block stands. -/
theorem faultedAndSleepingAreLeftByInitializeOrReset : Obligations.FaultedAndSleepingAreLeftByInitializeOrReset := by
  unfold Obligations.FaultedAndSleepingAreLeftByInitializeOrReset
  intro s t ha hphase hstep hnot
  have hready : s.phase ≠ .ready := by rcases hphase with h | h <;> rw [h] <;> decide
  cases hhost : s.host with
  | nil =>
    rw [step_nil hhost] at hstep
    exact advance_stands (s := s.withDone false) ha hstep
  | cons a rest =>
    obtain ⟨hcall, hstart, hreset, hpower⟩ := hnot rest
    simp only [hhost, ne_eq, List.cons.injEq, and_true] at hcall hstart hreset hpower
    rw [step_idle ha hhost] at hstep
    exact hostStep_stands (s := (s.withDone false).withHost rest) ha hready hcall hstart hreset hpower hstep

end Sys2Proof.Machine
end

-- ==== Block reset, and the block that is never stuck (R21, R130, R131, R132, R145) ====
section
/-! PROOFS. What a block reset leaves, between operations and in the middle of one; and that a step always answers: time passes in
every state of the invariant, and of the host's actions only a write beyond `fb` has no answer. -/

namespace Sys2Proof.Machine

/-! ## Block reset (R130, R132) -/

/-- Settles O2: a block reset is no request, so it is taken at once, whatever requests stand before it. -/
theorem blockResetGivesResetValues : Obligations.BlockResetGivesResetValues := by
  unfold Obligations.BlockResetGivesResetValues
  intro s held rest h hheld hidle
  refine ⟨_, step_free h hheld hidle rfl, rfl, rfl, rfl, rfl, rfl, rfl, rfl, rfl, rfl, rfl, rfl, rfl, fun _ => rfl, rfl, rfl, rfl,
    fun hb => ?_, fun n hb => ?_, fun ha => ?_⟩
  · exact envAfterReset_dead (s := (s.withDone false).withHost (held ++ rest)) hb
  · exact envAfterReset_alive (s := (s.withDone false).withHost (held ++ rest)) hb
  · exact panelAfterReset_idle (s := (s.withDone false).withHost (held ++ rest)) ha

/-- A reset in the middle of an operation leaves the panel's configuration undefined (R132). -/
theorem panelAfterReset_config {s : State} (ha : s.active = true) : (panelAfterReset s).config = .undefined := by
  rw [panelAfterReset, if_pos ha]
  split <;> rfl

/-- It leaves nothing of the panel known once the operation has used the bus (R132). -/
theorem panelAfterReset_touched {s : State} (ha : s.active = true) (h : busTouched s = true) :
    panelAfterReset s = ⟨.undefined, .undefined, .undefined⟩ := by
  rw [panelAfterReset, if_pos ha, if_pos h]

theorem busTouched_of_emitted {s : State} {q : Seq} (hseq : s.seq = some q) (h : (q.emitted s).any isBus = true) :
    busTouched s = true := by simp [busTouched, hseq, h]

/-- Settles O3: the reset is taken at once, emits no event, and the ghost state is that of a cut operation. -/
theorem resetCutsAnOperationShort : Obligations.ResetCutsAnOperationShort := by
  unfold Obligations.ResetCutsAnOperationShort
  intro s q held rest hact hseq hhost hheld
  let s₀ := (s.withDone false).withHost (held ++ rest)
  refine ⟨blockReset s₀, step_free hhost hheld (fun hidle => absurd (hact.symm.trans hidle) nofun) rfl,
    rfl, rfl, rfl, rfl, rfl, rfl, rfl, panelAfterReset_config (s := s₀) hact, fun hbus => ?_⟩
  have hpanel : (blockReset s₀).panel = ⟨.undefined, .undefined, .undefined⟩ :=
    panelAfterReset_touched (s := s₀) hact (busTouched_of_emitted (s := s₀) hseq hbus)
  rw [hpanel]
  exact ⟨rfl, rfl⟩

/-! ## The idle block (R131) -/

/-- Time that passes leaves an idle block as it is. -/
theorem advance_idle {s : State} (ha : s.active = false) : advance s = .next s := by
  rw [advance, ha, if_neg Bool.false_ne_true]

/-- Settles O13: with no request time passes; in Uninitialized the guard lets INITIALIZE alone run. -/
theorem idleBlockWaitsForARequest : Obligations.IdleBlockWaitsForARequest := by
  unfold Obligations.IdleBlockWaitsForARequest
  refine ⟨fun s ha hhost => (step_nil hhost).trans (advance_idle (s := s.withDone false) ha), fun i s hphase hi => ?_⟩
  have hg : guardPasses i s.phase = false := guardPasses_eq_false.2 ⟨hi, by rw [hphase]; nofun⟩
  exact ⟨_, exec_refuses hg, rfl, hphase⟩

/-! ## A step always answers (R145) -/

/-- Time passes unless an operation runs that has no position. -/
theorem advance_answers {s : State} (h : s.active = true → ∃ q, s.seq = some q) : ∃ t, advance s = .next t := by
  cases ha : s.active with
  | false => exact ⟨_, advance_idle ha⟩
  | true =>
    obtain ⟨q, hq⟩ := h ha
    exact ⟨microStep q s, by rw [advance, ha, if_pos rfl, hq]⟩

/-- Every action of the host is answered, if time can pass and a write stays inside `fb`. -/
theorem hostStep_answers {a : HostAction} {s : State} (htime : ∃ t, advance s = .next t)
    (hwrite : ∀ addr v, a = .memWrite addr v → addr + v.length ≤ s.cfg.fbBytes) : ∃ t, hostStep a s = .next t := by
  cases a with
  | call w => exact ⟨_, exec_eq (decode w) s⟩
  | idle => exact htime
  | memWrite addr v => exact ⟨_, if_pos (hwrite addr v rfl)⟩
  | start _ | fbLoad _ | blockReset | powerCycle => exact ⟨_, rfl⟩

/-- Settles O52: in a state of the invariant time can pass, and a write is taken by an idle block only. -/
theorem stepAlwaysAnswers : Obligations.StepAlwaysAnswers := by
  unfold Obligations.StepAlwaysAnswers
  intro s hinv hwrite
  have hseq (hact : s.active = true) : ∃ q, s.seq = some q := (hinv.running hact).imp fun _ h => h.1
  unfold step
  rcases htake : takeAction s.active s.host with ⟨_ | a, rest⟩
  · exact advance_answers (s := s.withDone false) hseq
  · refine hostStep_answers (advance_answers (s := (s.withDone false).withHost rest) hseq) ?_
    rintro addr v rfl
    obtain ⟨hidle, hhost⟩ := takeAction_request htake rfl
    exact hwrite addr v rest hhost hidle

end Sys2Proof.Machine
end

-- ==== What a sound bus and a responsive panel are worth (R142, R144, R146) ====
section
/-! PROOFS. Of the three ways an accepted operation ends, P1 excludes the fault and P2 the timeout; a configuration that matches its
panel (P5) gives P2, with the last sample of the busy-wait as the low one. -/

namespace Sys2Proof.Machine

/-- Under P1 and P2 of the operation's own busy-wait, where it has one, an accepted operation completes. -/
theorem OpEnd.ok_of_sound {i : Instr} {s t : State} (e : OpEnd i s t) (hbus : BusOkFor (opWindows s i).length s.env)
    (hbusy : i ≠ .sleep → ∃ w ≤ s.cfg.nPollMax, s.env.busyAt w = .low) : t.result = ⟨.ok, .none⟩ ∧ t.phase = targetPhase i := by
  cases e with
  | completed _ _ _ _ hresult hphase => exact ⟨hresult, hphase⟩
  | faulted j k v hv _ hk =>
    have hj : j < (opWindows s i).length := (List.getElem?_eq_some_iff.1 hv).1
    exact absurd (hbus.le_of_fault hk) (by omega)
  | timedOut hsleep _ hhigh =>
    obtain ⟨w, hw, hlow⟩ := hbusy hsleep
    exact absurd ((hhigh w (by omega)).symm.trans hlow) nofun

/-- Settles O29: what the guard refuses is not INITIALIZE and was asked outside Ready; what it lets run completes. -/
theorem noFailureUnderSoundBusAndResponsivePanel : Obligations.NoFailureUnderSoundBusAndResponsivePanel := by
  unfold Obligations.NoFailureUnderSoundBusAndResponsivePanel
  intro i s t hbus hbusy h
  rcases exec_cases h with ⟨hg, rfl⟩ | ⟨-, e, -⟩
  · exact .inr ⟨rfl, guardPasses_eq_false.1 hg⟩
  · exact .inl (e.ok_of_sound hbus hbusy).1

/-- Under P5 the last sample a busy-wait may take comes after the panel's longest busy time, so it reads low (R142, R144). -/
theorem MatchingConfiguration.last_sample_low {d : Datasheet} {c : Cfg} {e : Env} (hmatch : MatchingConfiguration d c)
    (hkeeps : KeepsBusyTime d c e) : e.busyAt c.nPollMax = .low := hkeeps _ le_rfl hmatch.timeout.le

/-- Settles O30: the panel that keeps its time is responsive, so the operation completes as under P1 and P2. -/
theorem matchingConfigurationOutlastsThePanel : Obligations.MatchingConfigurationOutlastsThePanel := by
  unfold Obligations.MatchingConfigurationOutlastsThePanel
  intro i s d hg hbus hmatch hkeeps
  obtain ⟨t, hexec, e, -⟩ := exec_accepted hg
  exact ⟨t, hexec, e.ok_of_sound hbus fun _ => ⟨_, le_rfl, hmatch.last_sample_low hkeeps⟩⟩

end Sys2Proof.Machine
end

-- ==== The events of an operation (R77, R135, R139, R145) ====
section
/-! PROOFS. After its prelude an operation emits windows, samples and delays only, one after another (`exec_events`), so what holds of
each of these and of events put together holds of the operation. Their number is read off the ends of `OpEnd`. -/

namespace Sys2Proof.Machine

/-! ## What holds of all events after the prelude -/

/-- `P` is a property of event lists that windows of `ws` with legal answers, samples and delays have, and lists put together from
lists that have it. -/
structure EventsHave (P : List Event → Prop) (ws : List (WireKind × List Byte)) : Prop where
  nil    : P []
  append : ∀ es es', P es → P es' → P (es ++ es')
  window : ∀ v ∈ ws, ∀ r, P (windowTrace v (legalOutcome v.2.length r))
  sample : ∀ v, P [.busy v]
  delay  : ∀ us, P [.delay us]

section EventsHave
variable {P : List Event → Prop} {ws : List (WireKind × List Byte)} (h : EventsHave P ws)
include h

theorem EventsHave.okTrace {vs : List (WireKind × List Byte)} (hvs : vs ⊆ ws) : P (okTrace vs) := by
  induction vs with
  | nil => exact h.nil
  | cons v vs ih =>
    obtain ⟨hv, hvs⟩ := List.cons_subset.1 hvs
    exact h.append _ _ (h.window v hv .ok) (ih hvs)

theorem EventsHave.pollTrace (us n : Nat) : P (pollTrace us n) := by
  induction n with
  | zero => exact h.nil
  | succ n ih => exact h.append [_] _ (h.sample .high) (h.append [_] _ (h.delay us) ih)

theorem EventsHave.waitTrace (us n : Nat) : P (waitTrace us n) := h.append _ _ (h.pollTrace us n) (h.sample .low)

theorem EventsHave.timeoutTrace (us n : Nat) : P (timeoutTrace us n) := h.append _ _ (h.pollTrace us n) (h.sample .high)

end EventsHave

/-- The events of an accepted operation are its prelude and then windows, samples and delays. -/
theorem OpEnd.events {P : List Event → Prop} {i : Instr} {s t : State} (e : OpEnd i s t) (hP : EventsHave P (opWindows s i)) :
    ∃ es, t.trace = s.trace ++ opPrelude s.cfg i ++ es ∧ P es := by
  cases e with
  | completed w _ _ htrace =>
    refine ⟨_, htrace.trans (List.append_assoc ..), hP.append _ _ (hP.okTrace (List.Subset.refl _)) ?_⟩
    split
    · exact hP.nil
    · exact hP.waitTrace ..
  | faulted j k v hv _ _ htrace =>
    exact ⟨_, htrace.trans (List.append_assoc ..),
      hP.append _ _ (hP.okTrace (List.take_subset ..)) (hP.window v (List.mem_of_getElem? hv) (.fault k))⟩
  | timedOut _ _ _ htrace =>
    exact ⟨_, htrace.trans (List.append_assoc ..), hP.append _ _ (hP.okTrace (List.Subset.refl _)) (hP.timeoutTrace ..)⟩

/-- INITIALIZE alone has a prelude. -/
theorem opPrelude_of_ne {i : Instr} (hi : i ≠ .initialise) (c : Cfg) : opPrelude c i = [] := by
  cases i with
  | initialise => exact absurd rfl hi
  | updateFrame | displayFrame | sleep => rfl

/-- A refused operation emits nothing, and as it is not INITIALIZE it has no prelude either. -/
theorem exec_events {P : List Event → Prop} {i : Instr} {s t : State} (h : exec i s = .next t)
    (hP : EventsHave P (opWindows s i)) : ∃ es, t.trace = s.trace ++ opPrelude s.cfg i ++ es ∧ P es := by
  rcases exec_cases h with ⟨hg, rfl⟩ | ⟨-, e, -⟩
  · refine ⟨[], ?_, hP.nil⟩
    rw [opPrelude_of_ne (guardPasses_eq_false.1 hg).1, List.append_nil, List.append_nil]
    rfl
  · exact e.events hP

/-! ## The reset pulse (R135) -/

theorem eventsHave_no_rstPin (ws : List (WireKind × List Byte)) : EventsHave (·.any isRstPin = false) ws where
  nil := rfl
  append es es' h h' := by rw [List.any_append, h, h', Bool.or_self]
  window _ _ _ := rfl
  sample _ := rfl
  delay _ := rfl

/-- Settles O34: the pulse is in the prelude of INITIALIZE, and no window, sample or delay writes RESET. -/
theorem resetPulseOnlyInInitialize : Obligations.ResetPulseOnlyInInitialize := by
  unfold Obligations.ResetPulseOnlyInInitialize
  intro i s t h
  obtain ⟨es, htrace, hes⟩ := exec_events h (eventsHave_no_rstPin _)
  refine ⟨opPrelude s.cfg i ++ es, htrace.trans (List.append_assoc ..), fun hi => ?_, ?_⟩
  · rwa [opPrelude_of_ne hi]
  · rintro rfl
    exact ⟨es, rfl, hes⟩

/-! ## Chip select (R139) -/

/-- A window as R73 and R74 open it: some bytes, and one byte for a command. -/
def LegalWindow (v : WireKind × List Byte) : Prop := v.2 ≠ [] ∧ (v.1 = .cmd → v.2.length = 1)

theorem legalWindow_command (c : Byte) : LegalWindow (.cmd, [c]) := ⟨nofun, fun _ => rfl⟩

theorem legalWindow_of_mem_dataWindows {bs : List Byte} {v : WireKind × List Byte} (hv : v ∈ dataWindows bs) : LegalWindow v := by
  by_cases hbs : bs = []
  · rw [hbs] at hv; cases hv
  · rw [dataWindows_of_ne hbs] at hv
    obtain rfl := List.mem_singleton.1 hv
    exact ⟨hbs, nofun⟩

theorem legalWindow_of_mem_commandThenData {c : Byte} {bs : List Byte} {v : WireKind × List Byte}
    (hv : v ∈ (.cmd, [c]) :: dataWindows bs) : LegalWindow v := by
  obtain rfl | hv := List.mem_cons.1 hv
  · exact legalWindow_command c
  · exact legalWindow_of_mem_dataWindows hv

theorem legalWindow_of_mem_tableWindows {es : List InitEntry} {v : WireKind × List Byte} (hv : v ∈ tableWindows es) :
    LegalWindow v := by
  induction es with
  | nil => cases hv
  | cons e es ih =>
    obtain hv | hv := List.mem_append.1 hv
    · exact legalWindow_of_mem_commandThenData hv
    · exact ih hv

/-- No operation opens a window for no bytes, or for a command of more than one. -/
theorem legalWindow_of_mem_opWindows {i : Instr} {s : State} {v : WireKind × List Byte} (hv : v ∈ opWindows s i) :
    LegalWindow v := by
  cases i with
  | initialise => exact legalWindow_of_mem_tableWindows hv
  | updateFrame | sleep => exact legalWindow_of_mem_commandThenData hv
  | displayFrame =>
    obtain rfl := List.mem_singleton.1 hv
    exact legalWindow_command _

/-- What a legal window sends is a legal burst, whatever the environment answers (R72). -/
theorem LegalWindow.legalBurst_eq_true {v : WireKind × List Byte} (h : LegalWindow v) (r : BusOutcome) :
    legalBurst (dcLevel v.1) v.2 (legalOutcome v.2.length r) = true := by
  obtain ⟨hne, hcmd⟩ := h
  have hkind : (dcLevel v.1 == .high || v.2.length == 1) = true := by
    cases hk : v.1 with
    | cmd => rw [hcmd hk]; rfl
    | data => rfl
  have hempty : (!v.2.isEmpty) = true := by simpa using hne
  unfold legalBurst
  rw [hkind, hempty]
  cases r with
  | ok => rfl
  | fault k => simpa using Nat.mod_lt k (List.length_pos_iff.2 hne)

/-- Events of whole windows, one after the other, are events of whole windows. -/
theorem windowed_append {es : List Event} (h : windowed es = true) (es' : List Event) : windowed (es ++ es') = windowed es' := by
  fun_induction windowed es with
  | case1 => rfl
  | case2 v bs r es ih =>
    obtain ⟨hburst, hes⟩ := Bool.and_eq_true_iff.1 h
    simp [windowed, hburst, ih hes]
  | case3 v es ih => simpa [windowed] using ih h
  | case4 us es ih => simpa [windowed] using ih h
  | case5 v es ih => simpa [windowed] using ih h
  | case6 => cases h

theorem eventsHave_windowed (i : Instr) (s : State) : EventsHave (windowed · = true) (opWindows s i) where
  nil := rfl
  append es es' h h' := (windowed_append h es').trans h'
  window v hv r := by simp [windowTrace, windowed, (legalWindow_of_mem_opWindows hv).legalBurst_eq_true r]
  sample _ := rfl
  delay _ := rfl

/-- The prelude is the deassertion of CS, and then no write of CS or DC. -/
theorem opPrelude_windowed (c : Cfg) (i : Instr) : ∃ es, opPrelude c i = csOpening i ++ es ∧ windowed es = true := by
  cases i with
  | initialise => exact ⟨_, rfl, rfl⟩
  | updateFrame | displayFrame | sleep => exact ⟨[], rfl, rfl⟩

/-- Settles O32: what follows the deassertion of CS is the reset pulse and the events after the prelude. -/
theorem burstsLieInWindows : Obligations.BurstsLieInWindows := by
  unfold Obligations.BurstsLieInWindows
  intro i s t h
  obtain ⟨es, htrace, hes⟩ := exec_events h (eventsHave_windowed i s)
  obtain ⟨pulse, hprelude, hpulse⟩ := opPrelude_windowed s.cfg i
  refine ⟨pulse ++ es, ?_, (windowed_append hpulse es).trans hes⟩
  rw [htrace, hprelude]
  simp only [List.append_assoc]

/-! ## Their number (R145) -/

theorem length_okTrace (ws : List (WireKind × List Byte)) : (okTrace ws).length = 4 * ws.length := by
  induction ws with
  | nil => rfl
  | cons w ws ih => simp [windowTrace, ih]; omega

theorem length_dataWindows_le (bs : List Byte) : (dataWindows bs).length ≤ 1 := by
  unfold dataWindows
  split <;> simp

/-- An entry of the init table has at most two windows. -/
theorem length_tableWindows_le (es : List InitEntry) : (tableWindows es).length ≤ 2 * es.length := by
  induction es with
  | nil => exact Nat.le_refl 0
  | cons e es ih =>
    have := length_dataWindows_le e.params
    simp only [tableWindows, List.length_append, List.length_cons]
    omega

/-- The samples and delays of a busy-wait, and none in SLEEP (R76, R95). -/
def waitBound (c : Cfg) : Instr → Nat
  | .initialise | .updateFrame | .displayFrame => 2 * c.nPollMax + 1
  | .sleep => 0

theorem waitBound_of_ne {i : Instr} (hi : i ≠ .sleep) (c : Cfg) : waitBound c i = 2 * c.nPollMax + 1 := by
  cases i with
  | initialise | updateFrame | displayFrame => rfl
  | sleep => exact absurd rfl hi

/-- The bound of R145 is that of the prelude, four events a window, and the busy-wait. -/
theorem bound_le_eventBound (i : Instr) (s : State) :
    (opPrelude s.cfg i).length + 4 * (opWindows s i).length + waitBound s.cfg i ≤ eventBound s.cfg i := by
  have htable := length_tableWindows_le s.cfg.initTable
  have hframe := length_dataWindows_le (frame s)
  have hparams := length_dataWindows_le s.cfg.sleepParams
  cases i <;> simp only [opPrelude, bringUpTrace, opWindows, waitBound, eventBound, List.length_cons, List.length_nil] <;> omega

/-- An accepted operation emits its prelude, at most all its windows and at most a whole busy-wait. -/
theorem OpEnd.length_le {i : Instr} {s t : State} (e : OpEnd i s t) :
    t.trace.length ≤ s.trace.length + ((opPrelude s.cfg i).length + 4 * (opWindows s i).length + waitBound s.cfg i) := by
  cases e with
  | completed w _ hwait htrace =>
    have hlength : (if i = .sleep then [] else waitTrace s.cfg.tPollUs w).length ≤ waitBound s.cfg i := by
      split
      · exact Nat.zero_le _
      · next hsleep =>
        have := (hwait hsleep).1
        rw [waitBound_of_ne hsleep, waitTrace, List.length_append, length_pollTrace, List.length_singleton]
        omega
    simp only [htrace, List.length_append, length_okTrace]
    omega
  | faulted j k v hv _ _ htrace =>
    have hj : j < (opWindows s i).length := (List.getElem?_eq_some_iff.1 hv).1
    simp only [htrace, List.length_append, length_okTrace, List.length_take, windowTrace, List.length_cons, List.length_nil]
    omega
  | timedOut hsleep _ _ htrace =>
    simp only [htrace, List.length_append, length_okTrace, timeoutTrace, length_pollTrace, List.length_singleton,
      waitBound_of_ne hsleep]
    omega

/-- Settles O31: a refusal emits nothing, and an accepted operation no more than the parts of the bound. -/
theorem eventsAreBounded : Obligations.EventsAreBounded := by
  unfold Obligations.EventsAreBounded
  intro i s t h
  rcases exec_cases h with ⟨-, rfl⟩ | ⟨-, e, -⟩
  · exact Nat.le_add_right ..
  · exact e.length_le.trans (Nat.add_le_add_left (bound_le_eventBound i s) _)

end Sys2Proof.Machine
end

-- ==== Well-behaved BUSY (R134, R146) ====
section
/-! PROOFS. The panel raises BUSY for a command byte only, and before the next sample: so a sample that reads low leaves the line low
until the next burst (`WellBehavedBusy.low_until_burst`). An operation that completes in Ready ends with such a sample. -/

namespace Sys2Proof.Machine

/-! ## The line after a low sample -/

/-- A command byte is a burst. -/
theorem CommandIn.any_isBus {p es : List Event} (h : CommandIn p es) : es.any isBus = true := by
  obtain ⟨p', c, r, q, rfl, -⟩ := h
  simp [isBus]

/-- The latest events that hold no sample come after every sample. -/
theorem suffix_of_no_sample {a b p₁ p₂ : List Event} {v : Level} (h : a ++ Event.busy v :: b = p₁ ++ p₂)
    (hsample : p₂.any isBusy = false) : p₂ <:+ b := by
  have hnot : Event.busy v ∉ p₂ := fun hmem => by simpa [isBusy] using List.any_eq_false.1 hsample _ hmem
  obtain hsuf | hsuf := List.suffix_or_suffix_of_suffix (h ▸ List.suffix_append p₁ p₂) (List.suffix_append a (.busy v :: b))
  · exact (List.suffix_cons_iff.1 hsuf).resolve_left fun heq => hnot (heq ▸ List.mem_cons_self)
  · exact absurd (hsuf.subset List.mem_cons_self) hnot

section WellBehavedBusy
variable {line : List Event → Level} {es : List Event} (h : WellBehavedBusy line es)
include h

/-- A low line stays low over an event, unless a command byte was put on the bus since the last sample. -/
theorem WellBehavedBusy.stays_low {p q : List Event} {e : Event} (hes : es = p ++ e :: q) (hlow : line p = .low)
    (hquiet : ∀ p₁ p₂, p ++ [e] = p₁ ++ p₂ → p₂.any isBusy = false → p₂.any isBus = false) : line (p ++ [e]) = .low := by
  cases hline : line (p ++ [e]) with
  | low => rfl
  | high =>
    obtain ⟨p₁, p₂, hsplit, hcommand, hsample⟩ := h.raised p e q hes hlow hline
    exact absurd ((hquiet p₁ p₂ hsplit hsample).symm.trans hcommand.any_isBus) nofun

/-- After a sample that reads low the line is low until the next burst. -/
theorem WellBehavedBusy.low_until_burst {a b q : List Event} (hes : es = a ++ Event.busy .low :: b ++ q)
    (hb : b.any isBus = false) : line (a ++ Event.busy .low :: b) = .low := by
  have hquiet {b' p₁ p₂ : List Event} (hb' : b'.any isBus = false) (hsplit : a ++ Event.busy .low :: b' = p₁ ++ p₂)
      (hsample : p₂.any isBusy = false) : p₂.any isBus = false := by
    have hsuf := suffix_of_no_sample hsplit hsample
    exact List.any_eq_false.2 fun e he => List.any_eq_false.1 hb' e (hsuf.subset he)
  induction b using List.reverseRecOn generalizing q with
  | nil =>
    have hes : es = a ++ Event.busy .low :: q := by simpa using hes
    exact h.stays_low hes (h.sampled a .low q hes) fun p₁ p₂ => hquiet hb
  | append_singleton b e ih =>
    have hb' : b.any isBus = false := (Bool.or_eq_false_iff.1 (List.any_append ▸ hb)).1
    have hlow := ih (q := e :: q) (by simpa using hes) hb'
    have hstays := h.stays_low (q := q) (by simpa using hes) hlow fun p₁ p₂ hsplit => hquiet hb (by simpa using hsplit)
    simpa using hstays

end WellBehavedBusy

/-! ## From one operation to the next -/

/-- An operation that answers Ok completed: its windows are all sent, and its busy-wait, where it has one, saw BUSY low. -/
theorem exec_trace_of_ok {i : Instr} {s t : State} (h : exec i s = .next t) (hok : t.result = ⟨.ok, .none⟩) :
    t.phase = targetPhase i
    ∧ ∃ w, t.trace = s.trace ++ opPrelude s.cfg i ++ okTrace (opWindows s i)
        ++ if i = .sleep then [] else waitTrace s.cfg.tPollUs w := by
  rcases exec_cases h with ⟨-, rfl⟩ | ⟨-, e, -⟩
  · exact absurd hok nofun
  · cases e with
    | completed w _ _ htrace _ hphase => exact ⟨hphase, w, htrace⟩
    | faulted _ _ _ _ _ _ _ hresult => cases i <;> exact absurd (hresult.symm.trans hok) nofun
    | timedOut _ _ _ _ hresult => cases i <;> exact absurd (hresult.symm.trans hok) nofun

/-- An operation that completes in Ready ends with a sample that reads low (R15). -/
theorem exec_ends_low {i : Instr} {s t : State} (h : exec i s = .next t) (hok : t.result = ⟨.ok, .none⟩)
    (hready : t.phase = .ready) : ∃ a, t.trace = a ++ [.busy .low] := by
  obtain ⟨hphase, w, htrace⟩ := exec_trace_of_ok h hok
  have hsleep : i ≠ .sleep := by
    rintro rfl
    exact absurd (hready.symm.trans hphase) nofun
  rw [if_neg hsleep, waitTrace, ← List.append_assoc] at htrace
  exact ⟨_, htrace⟩

/-- Settles O37: the operation ends with a low sample, and there is no burst from it to the next operation's first. -/
theorem noCommandWhileBusyUnderWellBehavedBusy : Obligations.NoCommandWhileBusyUnderWellBehavedBusy := by
  unfold Obligations.NoCommandWhileBusyUnderWellBehavedBusy
  intro i j s t t' u line p₁ p₂ q bs r hexec hok hready _ _ hbusy htrace hnobus
  obtain ⟨a, ha⟩ := exec_ends_low hexec hok hready
  have hp₁ : p₁.any isBus = false := (Bool.or_eq_false_iff.1 (List.any_append ▸ hnobus)).1
  have hes : u.trace = a ++ Event.busy .low :: p₁ ++ (p₂ ++ Event.bus bs r :: q) := by simp [htrace, ha]
  simpa [ha] using hbusy.low_until_burst hes hp₁

/-! ## A refresh is seen through (R134 (c)) -/

/-- A busy-wait begins with a sample. -/
theorem waitTrace_eq_cons (us w : Nat) : ∃ v es, waitTrace us w = Event.busy v :: es := by
  cases w with
  | zero => exact ⟨_, _, rfl⟩
  | succ w => exact ⟨_, _, rfl⟩

/-- Settles O38: the command byte is delivered with DC low, so the panel raises BUSY before the first sample; the last one reads low. -/
theorem refreshIsSeenThroughUnderWellBehavedBusy : Obligations.RefreshIsSeenThroughUnderWellBehavedBusy := by
  unfold Obligations.RefreshIsSeenThroughUnderWellBehavedBusy
  intro s t line _ hexec hok hbusy
  obtain ⟨-, w, htrace⟩ := exec_trace_of_ok hexec hok
  obtain ⟨v, later, hfirst⟩ := waitTrace_eq_cons s.cfg.tPollUs w
  let opened := s.trace ++ [.pin .dc .low, .pin .cs .low]
  have hevents : t.trace = opened ++ Event.bus [s.cfg.cmdRefresh] .ok :: [Event.pin .cs .high] ++ waitTrace s.cfg.tPollUs w := by
    simp [htrace, opened, opPrelude, opWindows, commandTrace]
  have hdc : lastPin .dc none opened = some .low := by rw [lastPin_append]; rfl
  obtain ⟨p, p', hp, hhigh⟩ := hbusy.prompt opened _ [.pin .cs .high] v later (by rw [hevents, hfirst]) hdc rfl
  have hsplit : t.trace = s.trace ++ [.pin .dc .low, .pin .cs .low, .bus [s.cfg.cmdRefresh] .ok] ++ p
      ++ (p' ++ pollTrace s.cfg.tPollUs w) ++ [.busy .low] := by
    rw [hevents, hp]
    simp [opened, waitTrace]
  exact ⟨p, p' ++ pollTrace s.cfg.tPollUs w, hsplit, by simpa [opened] using hhigh, hbusy.sampled _ _ _ hsplit⟩

end Sys2Proof.Machine
end
